-- ==== Sys2Proof/Word.lean ====
section
/-! DEFINITION. The word types of the block and their plainest arithmetic (00_scope.md R12). -/

namespace Sys2Proof

/-- A byte, bits 7 down to 0 (R12). -/
abbrev Byte := BitVec 8

/-- A 32-bit word: a request word (30_encoding.md R91) or a status word (10_state.md R40). -/
abbrev Word := BitVec 32

/-- A level of a line, or a one-bit register: `true` is 1. -/
abbrev Level := Bool

/-- `ceil(a / b)` for `b >= 1` (R12). -/
def ceilDiv (a b : Nat) : Nat := (a + b - 1) / b

/-- `fill(v, n)`: `n` copies of the byte `v` (R12). -/
def fill (v : Byte) (n : Nat) : List Byte := List.replicate n v

end Sys2Proof
end

