-- ==== Sys2Proof/Syntax.lean ====
section
/-! DEFINITION. The instruction syntax, whole: the 12 host requests (30_encoding.md R94) and the 17 wire commands
(R101), with their operand blocks (R98). The constructors of `Instr` are also the abstract syntax of the host-program
notation of R103. -/

namespace Sys2Proof

/-- An RGB triple, 8 bits a component (10_state.md R36). -/
structure RGB where
  r : Byte
  g : Byte
  b : Byte
deriving DecidableEq, Repr, Inhabited

/-- A colour role (30_encoding.md R96). Code 3 is reserved and is no role. -/
inductive Role where
  | white
  | black
  | highlight
deriving DecidableEq, Repr, Inhabited

/-- The two planes of the framebuffer (10_state.md R24). -/
inductive Plane where
  | black
  | hl
deriving DecidableEq, Repr

/-- A payload source (40_channel.md R120): a byte string, or a plane reference, which stands for the plane's bytes as
they are when each chunk is sent. -/
inductive Payload where
  | bytes (s : List Byte)
  | plane (p : Plane)
deriving DecidableEq, Repr

/-- A pixel source descriptor `(pal, rect, pix)` of R98. `rect` is the half-open rectangle `x0 <= x < x1`,
`y0 <= y < y1`. `pix` is a table over `rect`, row by row from the top: `idx` holds palette indices and is used when
`pal` is not empty; `rgb` holds colours and is used when `pal` is empty (log 10). -/
structure Source where
  pal : List RGB
  x0  : Nat
  y0  : Nat
  x1  : Nat
  y1  : Nat
  idx : List Nat
  rgb : List RGB
deriving DecidableEq, Repr

/-- An operand block of a request (R98). -/
inductive Block where
  | b (s : List Byte)
  | h (s : List Byte)
  | payload (s : List Byte)
  | src (s : Source)
deriving DecidableEq, Repr

/-- A request `(W, blocks)` (R90). -/
structure Request where
  word   : Word
  blocks : List Block
deriving DecidableEq, Repr

/-- The instructions: one constructor per row of spec/opcode_table.json. -/
inductive Instr where
  /-- INIT, 41_protocol.md R160 -/
  | init
  /-- DISPLAY, R164, blocks `B` and `H` -/
  | display (b h : List Byte)
  /-- DISPLAY_FB, R165 -/
  | displayFb
  /-- CLEAR, R166 -/
  | clear
  /-- SLEEP, R167 -/
  | sleep
  /-- STATUS, R168 -/
  | status
  /-- FB_SET, 43_framebuffer.md R231 -/
  | fbSet (x y : BitVec 12) (role : Role)
  /-- FB_GET, R232 -/
  | fbGet (x y : BitVec 12)
  /-- FB_CLEAR, R234 -/
  | fbClear
  /-- FB_DRAW, R236, block `SRC` -/
  | fbDraw (src : Source)
  /-- CH_CMD, 40_channel.md R129, field `OPCODE`, block `PAYLOAD` -/
  | chCmd (opcode : Byte) (payload : List Byte)
  /-- CH_DATA, R130, block `PAYLOAD` -/
  | chData (payload : List Byte)
  /-- 0x12 W_SWRESET, 41_protocol.md R170, no payload -/
  | wSwreset
  /-- 0x46 W_AUTOWRITE_HL, R171 -/
  | wAutowriteHl (payload : List Byte)
  /-- 0x47 W_AUTOWRITE_BW, R172 -/
  | wAutowriteBw (payload : List Byte)
  /-- 0x0C W_SOFTSTART, R173 -/
  | wSoftstart (payload : List Byte)
  /-- 0x01 W_GATE, R174 -/
  | wGate (payload : List Byte)
  /-- 0x11 W_DATA_ENTRY, R175 -/
  | wDataEntry (payload : List Byte)
  /-- 0x44 W_RAMX_WINDOW, R176 -/
  | wRamxWindow (payload : List Byte)
  /-- 0x45 W_RAMY_WINDOW, R177 -/
  | wRamyWindow (payload : List Byte)
  /-- 0x3C W_BORDER, R178 -/
  | wBorder (payload : List Byte)
  /-- 0x18 W_TEMP_SENSOR, R179 -/
  | wTempSensor (payload : List Byte)
  /-- 0x22 W_UPDATE_CTRL2, R180 -/
  | wUpdateCtrl2 (payload : List Byte)
  /-- 0x20 W_MASTER_ACT, R181, no payload -/
  | wMasterAct
  /-- 0x24 W_WRITE_BW, R182, a byte string or `PLANE(BLACK)` -/
  | wWriteBw (src : Payload)
  /-- 0x26 W_WRITE_HL, R183, a byte string or `PLANE(HL)` -/
  | wWriteHl (src : Payload)
  /-- 0x4E W_RAMX_COUNTER, R184 -/
  | wRamxCounter (payload : List Byte)
  /-- 0x4F W_RAMY_COUNTER, R185 -/
  | wRamyCounter (payload : List Byte)
  /-- 0x10 W_DEEP_SLEEP, R186, payload fixed to `[0x01]` -/
  | wDeepSleep
deriving DecidableEq, Repr

end Sys2Proof
end

