-- ==== Sys2Proof/WellFormed.lean ====
section
/-! DEFINITION. The checks an instruction meets beyond its types: the source descriptor's (30_encoding.md R98) and
the plane references' (41_protocol.md R182, R183). -/

namespace Sys2Proof

/-- The number of pixels of the source's rectangle. -/
def Source.area (s : Source) : Nat := (s.x1 - s.x0) * (s.y1 - s.y0)

/-- `0 <= x0 <= x1` and `0 <= y0 <= y1` (R98). -/
def Source.rectOk (s : Source) : Bool := decide (s.x0 ≤ s.x1) && decide (s.y0 ≤ s.y1)

/-- `pix` gives an index when the palette is not empty and an RGB triple when it is, for every pixel of the rectangle
(R98), and nothing else. An index may be `>= len(pal)`: that is a reserved value, not a malformed descriptor. -/
def Source.pixOk (s : Source) : Bool :=
  if s.pal.isEmpty then decide (s.rgb.length = s.area) && s.idx.isEmpty
  else decide (s.idx.length = s.area) && s.rgb.isEmpty

/-- The descriptor does not break R98. -/
def Source.wf (s : Source) : Bool := s.rectOk && s.pixOk

/-- Every operand is one the instruction's rule admits. -/
def Instr.wf : Instr → Bool
  | .init => true
  | .display _ _ => true
  | .displayFb => true
  | .clear => true
  | .sleep => true
  | .status => true
  | .fbSet _ _ _ => true
  | .fbGet _ _ => true
  | .fbClear => true
  | .fbDraw src => src.wf
  | .chCmd _ _ => true
  | .chData _ => true
  | .wSwreset => true
  | .wAutowriteHl _ => true
  | .wAutowriteBw _ => true
  | .wSoftstart _ => true
  | .wGate _ => true
  | .wDataEntry _ => true
  | .wRamxWindow _ => true
  | .wRamyWindow _ => true
  | .wBorder _ => true
  | .wTempSensor _ => true
  | .wUpdateCtrl2 _ => true
  | .wMasterAct => true
  | .wWriteBw src => decide (src ≠ .plane .hl)
  | .wWriteHl src => decide (src ≠ .plane .black)
  | .wRamxCounter _ => true
  | .wRamyCounter _ => true
  | .wDeepSleep => true

end Sys2Proof
end

