-- ==== Sys2Proof/Decode.lean ====
section
/-! DEFINITION. The decoder of request words and of wire opcodes (30_encoding.md R91, R94 to R102), total and
rejecting by name, the encoder written from the same tables, and the byte stream of a wire command (R100). -/

namespace Sys2Proof

/-- What an instruction is written as: a request word with its operand blocks (R90), or a wire opcode with its payload
(R100). -/
inductive Code where
  | request (w : Word) (blocks : List Block)
  | wire (opcode : Byte) (src : Payload)
deriving DecidableEq, Repr

/-- Why a code is no instruction. The first five are the clauses of R95. -/
inductive DecodeError where
  /-- `OP` is 0x0, 0x7, 0xE or 0xF -/
  | reservedOp
  /-- a field R91 requires to be 0 is not 0 -/
  | nonzeroField
  /-- `ROLE = 3` in FB_SET -/
  | reservedRole
  /-- not exactly the operand blocks of R94 -/
  | badBlocks
  /-- the `SRC` descriptor breaks R98 -/
  | badSource
  /-- a wire opcode the block never emits (R102) -/
  | unlistedOpcode
  /-- a payload the wire command does not have (R101, R170, R181, R182, R183, R186) -/
  | badPayload
deriving DecidableEq, Repr

/-! ## Fields of the request word (R91) -/

/-- `OP`, W[31:28]. -/
def opField (w : Word) : BitVec 4 := w.extractLsb' 28 4
/-- `RSV`, W[27:26]. -/
def rsvField (w : Word) : BitVec 2 := w.extractLsb' 26 2
/-- `ROLE`, W[25:24]. -/
def roleField (w : Word) : BitVec 2 := w.extractLsb' 24 2
/-- `X`, W[23:12]. -/
def xField (w : Word) : BitVec 12 := w.extractLsb' 12 12
/-- `Y`, W[11:0]. -/
def yField (w : Word) : BitVec 12 := w.extractLsb' 0 12
/-- `OPCODE`, W[7:0], of CH_CMD. -/
def opcodeField (w : Word) : Byte := w.extractLsb' 0 8
/-- W[27:0], which every operation but FB_SET, FB_GET and CH_CMD requires to be 0. -/
def lowField (w : Word) : BitVec 28 := w.extractLsb' 0 28
/-- W[27:8], which CH_CMD requires to be 0. -/
def midField (w : Word) : BitVec 20 := w.extractLsb' 8 20

/-- The role a two-bit code names; 3 is reserved (R96). -/
def roleOfCode (c : BitVec 2) : Option Role :=
  match c.toNat with
  | 0 => some .white
  | 1 => some .black
  | 2 => some .highlight
  | _ => none

/-- The code of a role (R96). -/
def Role.code : Role → BitVec 2
  | .white => 0
  | .black => 1
  | .highlight => 2

/-! ## Decoding requests (R99) -/

/-- A request with no field and no operand block. -/
def decodePlain (w : Word) (bl : List Block) (i : Instr) : Except DecodeError Instr :=
  if lowField w ≠ 0 then .error .nonzeroField
  else match bl with
    | [] => .ok i
    | _ => .error .badBlocks

def decodeDisplay (w : Word) (bl : List Block) : Except DecodeError Instr :=
  if lowField w ≠ 0 then .error .nonzeroField
  else match bl with
    | [.b b, .h h] => .ok (.display b h)
    | _ => .error .badBlocks

def decodeFbSet (w : Word) (bl : List Block) : Except DecodeError Instr :=
  if rsvField w ≠ 0 then .error .nonzeroField
  else match roleOfCode (roleField w) with
    | none => .error .reservedRole
    | some role => match bl with
      | [] => .ok (.fbSet (xField w) (yField w) role)
      | _ => .error .badBlocks

def decodeFbGet (w : Word) (bl : List Block) : Except DecodeError Instr :=
  if rsvField w ≠ 0 ∨ roleField w ≠ 0 then .error .nonzeroField
  else match bl with
    | [] => .ok (.fbGet (xField w) (yField w))
    | _ => .error .badBlocks

def decodeFbDraw (w : Word) (bl : List Block) : Except DecodeError Instr :=
  if lowField w ≠ 0 then .error .nonzeroField
  else match bl with
    | [.src s] => if s.wf then .ok (.fbDraw s) else .error .badSource
    | _ => .error .badBlocks

def decodeChCmd (w : Word) (bl : List Block) : Except DecodeError Instr :=
  if midField w ≠ 0 then .error .nonzeroField
  else match bl with
    | [.payload s] => .ok (.chCmd (opcodeField w) s)
    | _ => .error .badBlocks

def decodeChData (w : Word) (bl : List Block) : Except DecodeError Instr :=
  if lowField w ≠ 0 then .error .nonzeroField
  else match bl with
    | [.payload s] => .ok (.chData s)
    | _ => .error .badBlocks

/-- The operation codes of R94. Each branch checks the required-zero fields first, then the role, then the blocks
(R99). -/
def decodeRequest (w : Word) (bl : List Block) : Except DecodeError Instr :=
  match (opField w).toNat with
  | 0x1 => decodePlain w bl .init
  | 0x2 => decodeDisplay w bl
  | 0x3 => decodePlain w bl .displayFb
  | 0x4 => decodePlain w bl .clear
  | 0x5 => decodePlain w bl .sleep
  | 0x6 => decodePlain w bl .status
  | 0x8 => decodeFbSet w bl
  | 0x9 => decodeFbGet w bl
  | 0xA => decodePlain w bl .fbClear
  | 0xB => decodeFbDraw w bl
  | 0xC => decodeChCmd w bl
  | 0xD => decodeChData w bl
  | _ => .error .reservedOp

/-! ## Decoding wire commands (R101) -/

/-- A wire command whose payload is fixed by its rule. -/
def decodeFixed (src : Payload) (payload : List Byte) (i : Instr) : Except DecodeError Instr :=
  if src = .bytes payload then .ok i else .error .badPayload

/-- A wire command whose payload is a byte string. -/
def decodeBytes (src : Payload) (mk : List Byte → Instr) : Except DecodeError Instr :=
  match src with
  | .bytes s => .ok (mk s)
  | .plane _ => .error .badPayload

/-- A wire command whose payload is a byte string or the named plane. -/
def decodePlaneOf (src : Payload) (p : Plane) (mk : Payload → Instr) : Except DecodeError Instr :=
  match src with
  | .bytes s => .ok (mk (.bytes s))
  | .plane q => if q = p then .ok (mk (.plane q)) else .error .badPayload

/-- The wire opcodes of R101. Any other opcode is none the block's sequences emit (R102). -/
def decodeWire (opcode : Byte) (src : Payload) : Except DecodeError Instr :=
  match opcode.toNat with
  | 0x12 => decodeFixed src [] .wSwreset
  | 0x46 => decodeBytes src .wAutowriteHl
  | 0x47 => decodeBytes src .wAutowriteBw
  | 0x0C => decodeBytes src .wSoftstart
  | 0x01 => decodeBytes src .wGate
  | 0x11 => decodeBytes src .wDataEntry
  | 0x44 => decodeBytes src .wRamxWindow
  | 0x45 => decodeBytes src .wRamyWindow
  | 0x3C => decodeBytes src .wBorder
  | 0x18 => decodeBytes src .wTempSensor
  | 0x22 => decodeBytes src .wUpdateCtrl2
  | 0x20 => decodeFixed src [] .wMasterAct
  | 0x24 => decodePlaneOf src .black .wWriteBw
  | 0x26 => decodePlaneOf src .hl .wWriteHl
  | 0x4E => decodeBytes src .wRamxCounter
  | 0x4F => decodeBytes src .wRamyCounter
  | 0x10 => decodeFixed src [0x01] .wDeepSleep
  | _ => .error .unlistedOpcode

/-- The decoder, total on every code (R99). -/
def decode : Code → Except DecodeError Instr
  | .request w bl => decodeRequest w bl
  | .wire op src => decodeWire op src

/-! ## Encoding -/

/-- A request word by its fields (R91). -/
def requestWord (op : BitVec 4) (role : BitVec 2) (x y : BitVec 12) : Word :=
  op ++ (0 : BitVec 2) ++ role ++ x ++ y

/-- A request word whose low 28 bits are 0. -/
def plainWord (op : BitVec 4) : Word := op ++ (0 : BitVec 28)

/-- The code of an instruction, from the tables of R91, R94 and R101. -/
def encode : Instr → Code
  | .init => .request (plainWord 0x1) []
  | .display b h => .request (plainWord 0x2) [.b b, .h h]
  | .displayFb => .request (plainWord 0x3) []
  | .clear => .request (plainWord 0x4) []
  | .sleep => .request (plainWord 0x5) []
  | .status => .request (plainWord 0x6) []
  | .fbSet x y role => .request (requestWord 0x8 role.code x y) []
  | .fbGet x y => .request (requestWord 0x9 0 x y) []
  | .fbClear => .request (plainWord 0xA) []
  | .fbDraw src => .request (plainWord 0xB) [.src src]
  | .chCmd opcode payload => .request ((0xC : BitVec 4) ++ (0 : BitVec 20) ++ opcode) [.payload payload]
  | .chData payload => .request (plainWord 0xD) [.payload payload]
  | .wSwreset => .wire 0x12 (.bytes [])
  | .wAutowriteHl p => .wire 0x46 (.bytes p)
  | .wAutowriteBw p => .wire 0x47 (.bytes p)
  | .wSoftstart p => .wire 0x0C (.bytes p)
  | .wGate p => .wire 0x01 (.bytes p)
  | .wDataEntry p => .wire 0x11 (.bytes p)
  | .wRamxWindow p => .wire 0x44 (.bytes p)
  | .wRamyWindow p => .wire 0x45 (.bytes p)
  | .wBorder p => .wire 0x3C (.bytes p)
  | .wTempSensor p => .wire 0x18 (.bytes p)
  | .wUpdateCtrl2 p => .wire 0x22 (.bytes p)
  | .wMasterAct => .wire 0x20 (.bytes [])
  | .wWriteBw src => .wire 0x24 src
  | .wWriteHl src => .wire 0x26 src
  | .wRamxCounter p => .wire 0x4E (.bytes p)
  | .wRamyCounter p => .wire 0x4F (.bytes p)
  | .wDeepSleep => .wire 0x10 (.bytes [0x01])

/-! ## The byte stream of a wire command (R100) -/

/-- A wire command as the panel sees it: the opcode byte with `DC = 0`, then each payload byte with `DC = 1`. -/
def wireFrame (opcode : Byte) (payload : List Byte) : List (Level × Byte) :=
  (false, opcode) :: payload.map fun b => (true, b)

/-- The payload runs from the byte after the opcode up to the next `DC = 0` byte. -/
def splitPayload : List (Level × Byte) → List Byte × List (Level × Byte)
  | [] => ([], [])
  | (false, b) :: rest => ([], (false, b) :: rest)
  | (true, b) :: rest =>
    let (s, t) := splitPayload rest
    (b :: s, t)

/-- A receiver's reading of the first wire command of a stream, with the rest of it; none where the stream does not
begin with a `DC = 0` byte. -/
def parseFrame : List (Level × Byte) → Option (Byte × List Byte × List (Level × Byte))
  | (false, op) :: rest =>
    let (s, t) := splitPayload rest
    some (op, s, t)
  | _ => none

/-! ## The opcode table's words -/

/-- The operand blocks that go with a table row's word: the table gives them no bits, so each is empty (log 12). -/
def emptyBlocks (w : Word) : List Block :=
  match (opField w).toNat with
  | 0x2 => [.b [], .h []]
  | 0xB => [.src { pal := [], x0 := 0, y0 := 0, x1 := 0, y1 := 0, idx := [], rgb := [] }]
  | 0xC => [.payload []]
  | 0xD => [.payload []]
  | _ => []

/-- The payload that goes with a table row's wire opcode: the one its rule fixes, else none (log 12). -/
def tablePayload (opcode : Byte) : Payload :=
  match opcode.toNat with
  | 0x10 => .bytes [0x01]
  | _ => .bytes []

/-- The code a table row's word stands for: 32 bits are a request word, 8 bits a wire opcode. -/
def tableCode (nbits w : Nat) : Option Code :=
  if 2 ^ nbits ≤ w then none
  else match nbits with
    | 32 => some (.request (BitVec.ofNat 32 w) (emptyBlocks (BitVec.ofNat 32 w)))
    | 8 => some (.wire (BitVec.ofNat 8 w) (tablePayload (BitVec.ofNat 8 w)))
    | _ => none

/-- The instruction the decoder reads from a table row's word. -/
def decodeTableWord (nbits w : Nat) : Option Instr :=
  match tableCode nbits w with
  | none => none
  | some c => match decode c with
    | .ok i => some i
    | .error _ => none

end Sys2Proof
end

