-- ==== Sys2Proof/Config.lean ====
section
/-! DEFINITION. The configuration record CFG (00_scope.md R5, R6), the OPEN parameters as constants with no body, and
the free values (R10, R266, 20_memory.md R74). -/

namespace Sys2Proof

/-- The configuration record CFG (R5). Times are in microseconds. `BPR` and `PLANE_SIZE` are derived below. -/
structure Cfg where
  width        : Nat
  height       : Nat
  xferLimit    : Nat
  nPorts       : Nat
  accent       : RGB
  busyReady    : Level
  tRstH1       : Nat
  tRstL        : Nat
  tRstH2       : Nat
  tPoll        : Nat
  tSettle      : Nat
  tAct         : Nat
  pAutowriteHl : List Byte
  pAutowriteBw : List Byte
  pSoftstart   : List Byte
  pGate        : List Byte
  pDataEntry   : List Byte
  pRamxWindow  : List Byte
  pRamyWindow  : List Byte
  pBorder      : List Byte
  pTempSensor  : List Byte
  pLoadMode    : List Byte
  pRamxOrigin  : List Byte
  pRamyOrigin  : List Byte
  pRefreshMode : Byte
deriving DecidableEq, Repr

/-- `BPR`, bytes per row (R5). -/
def Cfg.bpr (c : Cfg) : Nat := ceilDiv c.width 8

/-- `PLANE_SIZE`, bytes per plane (R5). -/
def Cfg.planeSize (c : Cfg) : Nat := c.bpr * c.height

/-- The legal configurations (R6). The payloads and the accent colour are legal by their types. -/
def Cfg.legal (c : Cfg) : Bool :=
  decide (1 ≤ c.width) && decide (c.width ≤ 4096) && decide (1 ≤ c.height) && decide (c.height ≤ 4096) &&
  decide (1 ≤ c.xferLimit) && decide (1 ≤ c.nPorts) &&
  decide (10000 ≤ c.tSettle) && decide (c.tSettle ≤ 200000) && decide (200 ≤ c.tAct)

namespace Config

/-! The OPEN parameters of R5. -/

/-- `XFER_LIMIT - 1`. -/
opaque openXferLimit : Nat
/-- `N_PORTS - 1`. -/
opaque openPorts : Nat
/-- `T_SETTLE` within its range of 190001 values. -/
opaque openSettle : Nat
/-- `T_ACT - 200`. -/
opaque openAct : Nat
opaque pAutowriteHl : List Byte
opaque pAutowriteBw : List Byte
opaque pSoftstart : List Byte
opaque pGate : List Byte
opaque pDataEntry : List Byte
opaque pRamxWindow : List Byte
opaque pRamyWindow : List Byte
opaque pBorder : List Byte
opaque pTempSensor : List Byte
opaque pLoadMode : List Byte
opaque pRamxOrigin : List Byte
opaque pRamyOrigin : List Byte
opaque pRefreshMode : Byte

/-! The free values: the draws, each indexed by the counter `env.draws` (log 3), and a value no rule states. -/

/-- The `k`-th draw of a busy sample (R10). -/
opaque freeBusy : Nat → Level
/-- The `k`-th draw of a transfer's outcome `(n, ok)` (R10). -/
opaque freeXfer : Nat → Nat × Bool
/-- The `k`-th draw of the port that moves next (20_memory.md R71, R74). -/
opaque freePort : Nat → Nat
/-- The `k`-th draw of the role code an out-of-bounds FB_GET answers with (60_exceptions.md R266). -/
opaque freeRole : Nat → Role
/-- The 32-bit sent count a response carries for a count of `n >= 2^32` bytes: the spec states none (log 17). -/
opaque wideSent : Nat → Word

/-- The instance `State.reset` starts: the defaults of R5, every OPEN parameter symbolic within its legal range. -/
def cfg : Cfg where
  width        := 880
  height       := 528
  xferLimit    := openXferLimit + 1
  nPorts       := openPorts + 1
  accent       := { r := 255, g := 0, b := 0 }
  busyReady    := true
  tRstH1       := 200000
  tRstL        := 2000
  tRstH2       := 200000
  tPoll        := 10000
  tSettle      := 10000 + openSettle % 190001
  tAct         := 200 + openAct
  pAutowriteHl := pAutowriteHl
  pAutowriteBw := pAutowriteBw
  pSoftstart   := pSoftstart
  pGate        := pGate
  pDataEntry   := pDataEntry
  pRamxWindow  := pRamxWindow
  pRamyWindow  := pRamyWindow
  pBorder      := pBorder
  pTempSensor  := pTempSensor
  pLoadMode    := pLoadMode
  pRamxOrigin  := pRamxOrigin
  pRamyOrigin  := pRamyOrigin
  pRefreshMode := pRefreshMode

end Config

end Sys2Proof
end

