-- ==== Sys2Proof/Machine/State.lean ====
section
/-! DEFINITION. The state of the block (10_state.md, 00_scope.md R9) as plain data, its reset (70_reset_and_hazards.md
R290), construction (R292), and the reasons a step can stop. -/

namespace Sys2Proof.Machine

/-- The reasons of `raise Fault` (60_exceptions.md R267). They are values of the register `FAULT`: raising one is a
next state (R14, log 11), and no step of this model ends in `Host.Outcome.fault`. -/
inductive Fault where
  /-- FB_GET reads the pair (0,1) (43_framebuffer.md R232). Raised by `execFbGet`. Safe: R43 shows it is unreachable. -/
  | invalidPixel
  /-- An FB_DRAW pixel index names no colour (42_palette.md R216). Raised by `drawPixel`. Safe: the spec's own mark. -/
  | srcIndex
deriving DecidableEq, Repr

/-- The reasons a step has no meaning. -/
inductive Refusal where
  /-- An instruction with no meaning yet, by its mnemonic. Raised by a refused arm of `exec`. Safe. -/
  | notModelled (mnemonic : String)
  /-- The running port's `pc` lies beyond its instruction's step list. Raised by `runStep`, in states no
  run reaches (log 13). Safe. -/
  | noMicroStep
  /-- A `Release` by a port that is not the owner; R15 requires the owner. Raised by `releaseBus` and `protocolExit`, in
  states no run reaches (log 13). Safe. -/
  | releaseNotOwner
deriving DecidableEq, Repr

/-- The DisplayState register's six values (10_state.md R22). -/
inductive DState where
  | uninitialized
  | configuring
  | idle
  | uploading
  | refreshing
  | asleep
deriving DecidableEq, Repr

/-- The output lines (00_scope.md R8). -/
inductive Pin where
  | rst
  | cs
  | dc
deriving DecidableEq, Repr

/-- The named delays (R5, 70_reset_and_hazards.md R304). -/
inductive DelayName where
  | rstH1
  | rstL
  | rstH2
  | poll
  | settle
  | act
deriving DecidableEq, Repr

/-- A change of bus-lock ownership (R9). -/
inductive LockAct where
  | acq
  | rel
deriving DecidableEq, Repr

/-- What a logged transfer belonged to: a command's opcode, or a SEND_DATA (60_exceptions.md R265). -/
inductive LogWhat where
  | opcode (op : Byte)
  | data
deriving DecidableEq, Repr

/-- The response codes (R261); `ok` is 0, `illegal` 1, `len` 2, `oob` 3. -/
inductive RespCode where
  | ok
  | illegal
  | len
  | oob
deriving DecidableEq, Repr

/-- The data field of a response (30_encoding.md R93). -/
inductive RespData where
  | empty
  | role (r : Role)
  | status (w0 w1 w2 : Word)
  | sent (n : Word)
deriving DecidableEq, Repr

/-- The response record `resp(code, xf, sq, data)` (R93). -/
structure Response where
  code : RespCode
  xf   : Bool
  sq   : Bool
  data : RespData
deriving DecidableEq, Repr

/-- The events of the trace (00_scope.md R9). -/
inductive Event where
  | pin (p : Pin) (lvl : Level)
  | xfer (port : Nat) (bytes : List Byte) (n : Nat) (ok : Bool)
  | busy (lvl : Level)
  | delay (name : DelayName)
  | lock (port : Nat) (act : LockAct)
  | log (port : Nat) (what : LogWhat) (sent : Nat)
  | resp (port : Nat) (r : Response)
deriving DecidableEq, Repr

/-- Three values indexed 0, 1, 2: by role code for `ROLE_RGB` (10_state.md R36), by palette position for `BIND[p]`
(R37). -/
structure Three (α : Type) where
  i0 : α
  i1 : α
  i2 : α
deriving DecidableEq, Repr

/-- `SEQ[p].op`: no request, the instruction in progress, or no further step after a fault (R21, 00_scope.md R14). -/
inductive SeqOp where
  | idle
  | busy (i : Instr)
  | stopped
deriving DecidableEq, Repr

/-- The sequencer record `SEQ[p]` (R21). `sent` and `ok` are the local variables of SEND_COMMAND and SEND_DATA
(40_channel.md R123, R124, R128). -/
structure Seq where
  op   : SeqOp
  pc   : Nat
  xf   : Bool
  sq   : Bool
  sent : Nat
  ok   : Bool
deriving DecidableEq, Repr

/-- A port: its sequencer, its role-binding register `BIND[p]` (R37), and the requests its host will send (30_encoding.md
R92, log 4). -/
structure Port where
  seq   : Seq
  bind  : Three Role
  inbox : List Request
deriving DecidableEq, Repr

/-- The framebuffer: the planes `BLACK` and `HL` (R24) as cells over their reset contents (log 14), `FB_RACE` (R33) and
the owners that define it (R34). -/
structure FrameBuf where
  black       : List Host.Cell
  hl          : List Host.Cell
  race        : Bool
  drawOwner   : Option Nat
  uploadOwner : Option Nat
deriving DecidableEq, Repr

/-- The output pin registers (R25). -/
structure Pins where
  rst : Level
  cs  : Level
  dc  : Level
deriving DecidableEq, Repr

/-- The transfer error registers `XFER_ERR`, `XFER_ERR_CNT`, `LAST_ERR_OP`, `LAST_ERR_SENT` (R28 to R31). -/
structure ErrRegs where
  xferErr  : Bool
  cnt      : BitVec 32
  lastOp   : BitVec 9
  lastSent : BitVec 32
deriving DecidableEq, Repr

/-- The environment's draws: the scheduler's next choices, the next busy samples, the next transfer outcomes, and the
index of the next free value (logs 1 and 3). -/
structure Env where
  sched  : List Nat
  busyIn : List Level
  xferIn : List (Nat × Bool)
  draws  : Nat
deriving DecidableEq, Repr

/-- The state of one instance. `cfg` is the model's argument CFG (00_scope.md R5, R291); `cur` is the port whose
micro-step is running. -/
structure State where
  cfg      : Cfg
  ports    : List Port
  cur      : Nat
  dstate   : DState
  fb       : FrameBuf
  pins     : Pins
  busOwner : Option Nat
  fsmOwner : Option Nat
  err      : ErrRegs
  seqErr   : Bool
  fault    : Option Fault
  roleRgb  : Three RGB
  trace    : List Event
  env      : Env
deriving DecidableEq, Repr

/-- The sequencer of an idle port (R21). -/
def Seq.idle : Seq := { op := .idle, pc := 0, xf := false, sq := false, sent := 0, ok := true }

/-- A port right after block reset. The value of `bind` is the model's (log 5). -/
def Port.idle : Port := { seq := Seq.idle, bind := { i0 := .white, i1 := .white, i2 := .white }, inbox := [] }

/-- The role palette of an instance (R36). -/
def rolePalette (c : Cfg) : Three RGB :=
  { i0 := { r := 255, g := 255, b := 255 }, i1 := { r := 0, g := 0, b := 0 }, i2 := c.accent }

/-- Block reset of an instance with configuration `c` (70_reset_and_hazards.md R290). -/
def State.ofCfg (c : Cfg) : State where
  cfg      := c
  ports    := List.replicate c.nPorts Port.idle
  cur      := 0
  dstate   := .uninitialized
  fb       := { black := [], hl := [], race := false, drawOwner := none, uploadOwner := none }
  pins     := { rst := true, cs := true, dc := true }
  busOwner := none
  fsmOwner := none
  err      := { xferErr := false, cnt := 0, lastOp := 0, lastSent := 0 }
  seqErr   := false
  fault    := none
  roleRgb  := rolePalette c
  trace    := []
  env      := { sched := [], busyIn := [], xferIn := [], draws := 0 }

/-- Construction: an illegal CFG yields no instance (R292, 60_exceptions.md R262). -/
def State.construct (c : Cfg) : Option State := if c.legal then some (State.ofCfg c) else none

/-- The machine right after reset: the instance of `Config.cfg` (R290). -/
def State.reset : State := State.ofCfg Config.cfg

end Sys2Proof.Machine
end

