-- ==== Sys2Proof/Machine/Memory.lean ====
section
/-! DEFINITION. A plane as a list of cells in one canonical form (10_state.md R24; 00_scope.md R13). -/

namespace Sys2Proof.Machine

/-- What an unlisted byte of a plane reads as: the plane's reset contents (R24). -/
def planeFill : Plane → Byte
  | .black => 0xFF
  | .hl => 0x00

/-- The byte at address `a` of a memory whose unlisted bytes read as `d`. -/
def Memory.read (d : Byte) : List Host.Cell → Nat → Byte
  | [], _ => d
  | (b, v) :: m, a => if a = b then v else Memory.read d m a

/-- The memory with the byte `v` at address `a`, in canonical form. -/
def Memory.write (d : Byte) : List Host.Cell → Nat → Byte → List Host.Cell
  | [], a, v => if v = d then [] else [(a, v)]
  | (b, w) :: m, a, v =>
    if a < b then (if v = d then (b, w) :: m else (a, v) :: (b, w) :: m)
    else if a = b then (if v = d then m else (a, v) :: m)
    else (b, w) :: Memory.write d m a v

/-- Every listed address is at least `lo`, the addresses rise strictly, and no cell holds `d`. -/
def Memory.wfFrom (d : Byte) (lo : Nat) : List Host.Cell → Bool
  | [] => true
  | (b, w) :: m => decide (lo ≤ b) && decide (w ≠ d) && Memory.wfFrom d (b + 1) m

/-- The canonical form of a memory whose unlisted bytes read as `d`. -/
def Memory.wf (d : Byte) (m : List Host.Cell) : Bool := Memory.wfFrom d 0 m

/-- Every listed address is below `n`. -/
def Memory.below (n : Nat) : List Host.Cell → Bool
  | [] => true
  | (b, _) :: m => decide (b < n) && Memory.below n m

/-- The cells of a plane. -/
def FrameBuf.cells (f : FrameBuf) : Plane → List Host.Cell
  | .black => f.black
  | .hl => f.hl

/-- `MemRead(P, i, 1)` (R13). -/
def FrameBuf.readByte (f : FrameBuf) (p : Plane) (i : Nat) : Byte := Memory.read (planeFill p) (f.cells p) i

/-- `MemWrite(P, i, 1, v)` (R13). -/
def FrameBuf.writeByte (f : FrameBuf) (p : Plane) (i : Nat) (v : Byte) : FrameBuf :=
  match p with
  | .black => { f with black := Memory.write (planeFill .black) f.black i v }
  | .hl => { f with hl := Memory.write (planeFill .hl) f.hl i v }

end Sys2Proof.Machine
end

