-- ==== Sys2Proof/Machine/Operands.lean ====
section
/-! DEFINITION. Operand forms: pixel addresses and pixel access (20_memory.md R61 to R64, 43_framebuffer.md R230),
payload sources and their chunks (40_channel.md R120, R121), upload padding (41_protocol.md R162), and the pixel source
descriptor (30_encoding.md R98). -/

namespace Sys2Proof.Machine

/-! ## Pixels -/

/-- `index(x, y)` (R61). -/
def pixelIndex (c : Cfg) (x y : Nat) : Nat := x / 8 + y * c.bpr

/-- `mask(x)` (R61, R64). -/
def pixelMask (x : Nat) : Byte := (0x80 : Byte) >>> (x % 8)

/-- In bounds (R62). -/
def inBounds (c : Cfg) (x y : Nat) : Bool := decide (x < c.width) && decide (y < c.height)

/-- The bit pair `(b, h)` of a role (R230). -/
def rolePair : Role → Bool × Bool
  | .white => (true, false)
  | .black => (false, false)
  | .highlight => (true, true)

/-- `role_of(b, h)`; none for the pair (0,1) (R230, R232). -/
def roleOfPair : Bool × Bool → Option Role
  | (true, false) => some .white
  | (false, false) => some .black
  | (true, true) => some .highlight
  | (false, true) => none

/-- A byte with its bits under `m` set to `b` (R230). -/
def withBit (v m : Byte) (b : Bool) : Byte := if b then v ||| m else v &&& ~~~m

/-- The bit pair of the pixel `(x, y)` (R232). -/
def FrameBuf.pixelPair (f : FrameBuf) (c : Cfg) (x y : Nat) : Bool × Bool :=
  (decide (f.readByte .black (pixelIndex c x y) &&& pixelMask x ≠ 0),
   decide (f.readByte .hl (pixelIndex c x y) &&& pixelMask x ≠ 0))

/-- `WRITE_PIXEL(x, y, role)` (R230). -/
def FrameBuf.writePixel (f : FrameBuf) (c : Cfg) (x y : Nat) (role : Role) : FrameBuf :=
  let i := pixelIndex c x y
  let m := pixelMask x
  let f1 := f.writeByte .black i (withBit (f.readByte .black i) m (rolePair role).1)
  f1.writeByte .hl i (withBit (f.readByte .hl i) m (rolePair role).2)

/-- Both planes at FB_CLEAR's constants, `BLACK` all 0xFF and `HL` all 0x00 (R234): no cell is listed. -/
def FrameBuf.cleared (f : FrameBuf) : FrameBuf := { f with black := [], hl := [] }

/-! ## Payload sources -/

/-- The length of a payload source (R120). -/
def payloadLen (c : Cfg) : Payload → Nat
  | .bytes s => s.length
  | .plane _ => c.planeSize

/-- `nchunks(n)` (R121). -/
def nchunks (c : Cfg) (n : Nat) : Nat := ceilDiv n c.xferLimit

/-- The bytes `[lo .. hi)` of a payload source; a plane's are read here (R120). -/
def payloadSlice (f : FrameBuf) (src : Payload) (lo hi : Nat) : List Byte :=
  match src with
  | .bytes s => (s.drop lo).take (hi - lo)
  | .plane p => (List.range (hi - lo)).map fun k => f.readByte p (lo + k)

/-- `chunk(k)` of a payload source: bytes `[k*L .. min((k+1)*L, n))` (R121). -/
def payloadChunk (c : Cfg) (f : FrameBuf) (src : Payload) (k : Nat) : List Byte :=
  payloadSlice f src (k * c.xferLimit) (min ((k + 1) * c.xferLimit) (payloadLen c src))

/-- All the bytes of a payload source. -/
def payloadAll (c : Cfg) (f : FrameBuf) (src : Payload) : List Byte := payloadSlice f src 0 (payloadLen c src)

/-- `padB(s)` (R162). -/
def padB (c : Cfg) (s : List Byte) : List Byte := s ++ fill 0xFF (c.planeSize - s.length)

/-- `padH(s)` (R162). -/
def padH (c : Cfg) (s : List Byte) : List Byte := s ++ fill 0x00 (c.planeSize - s.length)

/-! ## Indexed triples -/

/-- The `k`-th value; none beyond the third. -/
def Three.get? {α : Type} (t : Three α) : Nat → Option α
  | 0 => some t.i0
  | 1 => some t.i1
  | 2 => some t.i2
  | _ => none

/-- The triple with its `k`-th value replaced. -/
def Three.set {α : Type} (t : Three α) (k : Nat) (v : α) : Three α :=
  match k with
  | 0 => { t with i0 := v }
  | 1 => { t with i1 := v }
  | 2 => { t with i2 := v }
  | _ => t

/-- The values in index order. -/
def Three.toList {α : Type} (t : Three α) : List α := [t.i0, t.i1, t.i2]

/-- The RGB value of a role (10_state.md R36). -/
def Three.ofRole (t : Three RGB) : Role → RGB
  | .white => t.i0
  | .black => t.i1
  | .highlight => t.i2

/-! ## Pixel sources -/

/-- The pixel lies in the source's rectangle (R98). -/
def sourceContains (s : Source) (x y : Nat) : Bool :=
  decide (s.x0 ≤ x) && decide (x < s.x1) && decide (s.y0 ≤ y) && decide (y < s.y1)

/-- The place of a pixel of the rectangle in the tables `idx` and `rgb` (log 10). -/
def sourcePlace (s : Source) (x y : Nat) : Nat := (y - s.y0) * (s.x1 - s.x0) + (x - s.x0)

/-- `pix(x, y)` of a source with a palette: an index. -/
def pixIndex (s : Source) (x y : Nat) : Option Nat := s.idx[sourcePlace s x y]?

/-- `pix(x, y)` of a source without a palette: a colour. -/
def pixColour (s : Source) (x y : Nat) : Option RGB := s.rgb[sourcePlace s x y]?

end Sys2Proof.Machine
end

