-- ==== Sys2Proof/Machine/Flags.lean ====
section
/-! DEFINITION. The flags and status registers: the race flag (20_memory.md R76), the transfer error registers
(60_exceptions.md R265), the transition guard (41_protocol.md R151, R152) and the status record (10_state.md R40). -/

namespace Sys2Proof.Machine

/-! ## FB_RACE (R76) -/

/-- `o` is none or the port `p`. -/
def freeFor (o : Option Nat) (p : Nat) : Bool := decide (o = none) || decide (o = some p)

/-- The framebuffer with `FB_RACE` set if `c` holds. -/
def FrameBuf.flagIf (f : FrameBuf) (c : Bool) : FrameBuf := { f with race := f.race || c }

/-- The race check of an FB_SET or FB_CLEAR step of port `p`. -/
def raceOnWrite (f : FrameBuf) (p : Nat) : FrameBuf :=
  f.flagIf (decide (f.drawOwner ≠ none) || !freeFor f.uploadOwner p)

/-- The race check of an FB_GET step of port `p`. -/
def raceOnRead (f : FrameBuf) (p : Nat) : FrameBuf := f.flagIf (!freeFor f.drawOwner p)

/-- The race check of the start step of an FB_DRAW. -/
def raceOnDraw (f : FrameBuf) : FrameBuf :=
  f.flagIf (decide (f.drawOwner ≠ none) || decide (f.uploadOwner ≠ none))

/-- The race check of the OPEN_WINDOW step of a DISPLAY_FB. -/
def raceOnOpen (f : FrameBuf) : FrameBuf := f.flagIf (decide (f.drawOwner ≠ none))

/-! ## Transfer error registers (R265) -/

/-- `LAST_ERR_OP` of a logged transfer (10_state.md R30). -/
def logOpCode : LogWhat → BitVec 9
  | .opcode op => op.zeroExtend 9
  | .data => 0x100

/-- `XFER_ERR_CNT + 1`, saturating (10_state.md R29). -/
def satIncr (n : BitVec 32) : BitVec 32 := if n = 0xFFFFFFFF then 0xFFFFFFFF else n + 1

/-- The error registers after `LOG_XFER(what, sent)` (R265). -/
def ErrRegs.logged (e : ErrRegs) (what : LogWhat) (sent : Nat) : ErrRegs where
  xferErr  := true
  cnt      := satIncr e.cnt
  lastOp   := logOpCode what
  lastSent := BitVec.ofNat 32 sent

/-- The 32-bit sent count of a response (30_encoding.md R93); no rule states it for a count that does not fit, where it is a
free value (log 17). -/
def sentWord (n : Nat) : Word := if n < 2 ^ 32 then BitVec.ofNat 32 n else Config.wideSent n

/-! ## The transition guard (R151, R152) -/

/-- The protocol requests by the row of R151's table they follow. -/
inductive Proto where
  | init
  | display
  | sleep
deriving DecidableEq, Repr

/-- `UNINITIALIZED`, `IDLE` and `ASLEEP` (41_protocol.md R150). -/
def DState.resting : DState → Bool
  | .uninitialized => true
  | .configuring => false
  | .idle => true
  | .uploading => false
  | .refreshing => false
  | .asleep => true

/-- "Allowed from" (R151). INIT is always allowed (R152, R160). -/
def allowedFrom : Proto → DState → Bool
  | .init, _ => true
  | .display, d => decide (d = .idle)
  | .sleep, d => decide (d = .idle) || decide (d = .asleep)

/-- `entry_state` (R153); SLEEP writes none. -/
def entryState : Proto → DState → DState
  | .init, _ => .configuring
  | .display, _ => .uploading
  | .sleep, d => d

/-- `end_state` (R151). -/
def endState : Proto → DState
  | .init => .idle
  | .display => .idle
  | .sleep => .asleep

/-! ## The status record (R40) -/

/-- The code of a DisplayState (R22). -/
def dstateCode : DState → BitVec 3
  | .uninitialized => 0
  | .configuring => 1
  | .idle => 2
  | .uploading => 3
  | .refreshing => 4
  | .asleep => 5

/-- Word 0: `0[31:17] LAST_ERR_OP[16:8] fsm[7] bus[6] FB_RACE[5] SEQ_ERR[4] XFER_ERR[3] DSTATE[2:0]`. -/
def statusWord0 (s : State) : Word :=
  (0 : BitVec 15) ++ s.err.lastOp ++ BitVec.ofBool s.fsmOwner.isSome ++ BitVec.ofBool s.busOwner.isSome ++
    BitVec.ofBool s.fb.race ++ BitVec.ofBool s.seqErr ++ BitVec.ofBool s.err.xferErr ++ dstateCode s.dstate

/-- The status record. -/
def statusRecord (s : State) : RespData := .status (statusWord0 s) s.err.cnt s.err.lastSent

end Sys2Proof.Machine
end

