-- ==== Sys2Proof/Machine/Ops.lean ====
section
/-! DEFINITION. The named operations over the state: the running port's sequencer, the trace, the environment's draws,
responses and raised faults (00_scope.md R14), and the transport and lock primitives (R15). Each primitive is one
micro-step. -/

namespace Sys2Proof.Machine

/-- The three outcomes of a step of this machine. -/
abbrev Out := Host.Outcome State Fault Refusal

/-! ## The running port -/

/-- The record of port `p`. -/
def State.portAt (s : State) (p : Nat) : Port := s.ports.getD p Port.idle

/-- The record of the running port. -/
def State.port (s : State) : Port := s.portAt s.cur

/-- The sequencer of the running port. -/
def State.seq (s : State) : Seq := s.port.seq

/-- The state with the running port's record replaced. -/
def State.setPort (s : State) (q : Port) : State := { s with ports := s.ports.set s.cur q }

/-- The state with the running port's sequencer replaced. -/
def State.setSeq (s : State) (q : Seq) : State := s.setPort { s.port with seq := q }

/-- `pc` advanced by `k` micro-steps (10_state.md R21; more than 1 where a failed transfer skips the rest of its logical
command, 30_encoding.md R104). -/
def State.advance (s : State) (k : Nat) : State := s.setSeq { s.seq with pc := s.seq.pc + k }

/-- `pc` one micro-step back: only BUSY_WAIT's loop does this (R21, 41_protocol.md R155). -/
def State.loopBack (s : State) : State := s.setSeq { s.seq with pc := s.seq.pc - 1 }

/-- The trace with one more event (R9). -/
def State.emit (s : State) (e : Event) : State := { s with trace := s.trace ++ [e] }

/-! ## Responses and faults -/

/-- `return resp(...)`: the request ends, its port is idle, and `Resp` is emitted (R14, R92). -/
def State.respond (s : State) (r : Response) : State := (s.setSeq Seq.idle).emit (.resp s.cur r)

/-- A response with code `OK` and both flags 0. -/
def okResp (d : RespData) : Response := { code := .ok, xf := false, sq := false, data := d }

/-- A refusal: its flags are 0 (60_exceptions.md R270). -/
def refuseResp (c : RespCode) (d : RespData) : Response := { code := c, xf := false, sq := false, data := d }

/-- `raise Fault(r)` (R14, 60_exceptions.md R267): `FAULT` takes the reason if it is none, the port takes no further
step and sends no response, and every lock it holds stays held (log 11). -/
def State.raiseFault (s : State) (r : Fault) : State :=
  let s1 : State := { s with fault := s.fault.or (some r) }
  s1.setSeq { s.seq with op := .stopped }

/-! ## The environment's draws (R10) -/

/-- A busy sample: the next fixed answer, else a free value (log 3). -/
def State.drawBusy (s : State) : Level × State :=
  match s.env.busyIn with
  | b :: rest => (b, { s with env := { s.env with busyIn := rest } })
  | [] => (Config.freeBusy s.env.draws, { s with env := { s.env with draws := s.env.draws + 1 } })

/-- A transfer's raw outcome: the next fixed answer, else a free value (log 3). -/
def State.drawXfer (s : State) : (Nat × Bool) × State :=
  match s.env.xferIn with
  | r :: rest => (r, { s with env := { s.env with xferIn := rest } })
  | [] => (Config.freeXfer s.env.draws, { s with env := { s.env with draws := s.env.draws + 1 } })

/-- The role code an out-of-bounds FB_GET answers with: a free value (60_exceptions.md R266, log 8). -/
def State.drawRole (s : State) : Role × State :=
  (Config.freeRole s.env.draws, { s with env := { s.env with draws := s.env.draws + 1 } })

/-- The port that moves next: the scheduler's next fixed choice, else a free value among the ports (log 1). -/
def State.drawPort (s : State) : Nat × State :=
  match s.env.sched with
  | p :: rest => (p, { s with env := { s.env with sched := rest } })
  | [] =>
    (Config.freePort s.env.draws % s.ports.length, { s with env := { s.env with draws := s.env.draws + 1 } })

/-! ## Transport and timing primitives (R15) -/

/-- The pin registers with one line driven to `lvl` (10_state.md R25). -/
def Pins.drive (p : Pins) (pin : Pin) (lvl : Level) : Pins :=
  match pin with
  | .rst => { p with rst := lvl }
  | .cs => { p with cs := lvl }
  | .dc => { p with dc := lvl }

/-- `PinWrite(pin, level)`. -/
def State.pinWrite (s : State) (pin : Pin) (lvl : Level) : State :=
  ({ s with pins := s.pins.drive pin lvl }).emit (.pin pin lvl)

/-- `Delay(name)`. -/
def State.delay (s : State) (d : DelayName) : State := s.emit (.delay d)

/-- The micro-step `PinWrite(pin, level)`. -/
def microPin (pin : Pin) (lvl : Level) (s : State) : Out := .next ((s.pinWrite pin lvl).advance 1)

/-- The micro-step `Delay(name)`. -/
def microDelay (d : DelayName) (s : State) : Out := .next ((s.delay d).advance 1)

/-- The micro-step `Delay(T_POLL)`, after which BUSY_WAIT samples again (41_protocol.md R155). -/
def microPollDelay (s : State) : Out := .next ((s.delay .poll).loopBack)

/-- The micro-step `SampleBusy`: a ready sample goes on to the settle delay, another to the poll delay (R155, R156). -/
def microSampleBusy (s : State) : Out :=
  let d := s.drawBusy
  .next ((d.2.emit (.busy d.1)).advance (if d.1 = s.cfg.busyReady then 2 else 1))

/-- The micro-step `Acquire(BUS)`: enabled only when the lock is free; a held port's state does not change. It starts the
logical command's `sent` and `ok` (40_channel.md R123, log 6). -/
def microAcquire (s : State) : Out :=
  match s.busOwner with
  | none =>
    let s1 : State := { s with busOwner := some s.cur }
    .next ((s1.emit (.lock s.cur .acq)).setSeq { s.seq with pc := s.seq.pc + 1, sent := 0, ok := true })
  | some _ => .next s

/-- `Release(BUS)`, which requires the owner, then `k` micro-steps forward. -/
def releaseBus (k : Nat) (s : State) : Out :=
  if s.busOwner = some s.cur then
    .next ((({ s with busOwner := none } : State).emit (.lock s.cur .rel)).advance k)
  else .refused .releaseNotOwner

/-- The micro-step `Release(BUS)` of the reset pulse. -/
def microRelease (s : State) : Out := releaseBus 1 s

/-- The micro-step `Release(BUS)` of a logical command: `LOG_XFER` is the next micro-step, and is skipped when the command
did not fail (40_channel.md R124). -/
def microReleaseCmd (s : State) : Out := releaseBus (if s.seq.ok then 2 else 1) s

/-- `(n, ok) <- Xfer(bytes)`: at most `len(bytes)` bytes are accepted (R10, log 3). -/
def State.xfer (s : State) (bytes : List Byte) : (Nat × Bool) × State :=
  let d := s.drawXfer
  let n := min d.1.1 bytes.length
  ((n, d.1.2), d.2.emit (.xfer s.cur bytes n d.1.2))

/-- The transfer succeeded (R10). -/
def xferOk (bytes : List Byte) (r : Nat × Bool) : Bool := r.2 && decide (r.1 = bytes.length)

/-- The micro-step `Xfer([op])`: on failure the next `skip` micro-steps are left out (40_channel.md R124). -/
def microXferOp (op : Byte) (skip : Nat) (s : State) : Out :=
  let x := s.xfer [op]
  let ok := xferOk [op] x.1
  .next (x.2.setSeq { s.seq with pc := s.seq.pc + (if ok then 1 else 1 + skip), sent := x.1.1, ok := ok })

/-- The micro-step `Xfer(chunk(k))` of `DATA_BODY`: on failure the next `skip` micro-steps are left out (R123). The bytes
of a plane are read here (R120). -/
def microXferChunk (src : Payload) (k skip : Nat) (s : State) : Out :=
  let bytes := payloadChunk s.cfg s.fb src k
  let x := s.xfer bytes
  let ok := xferOk bytes x.1
  .next (x.2.setSeq
    { s.seq with pc := s.seq.pc + (if ok then 1 else 1 + skip), sent := s.seq.sent + x.1.1, ok := ok })

/-- The micro-step `LOG_XFER(what, sent)` (60_exceptions.md R265). -/
def microLogXfer (what : LogWhat) (s : State) : Out :=
  let s1 : State := { s with err := s.err.logged what s.seq.sent }
  .next ((s1.emit (.log s.cur what s.seq.sent)).setSeq { s.seq with pc := s.seq.pc + 1, xf := true })

/-- The micro-step `return resp(OK, not ok, 0, sent)` of CH_CMD and CH_DATA (40_channel.md R129, R130). -/
def microRespondSent (s : State) : Out :=
  .next (s.respond { code := .ok, xf := !s.seq.ok, sq := false, data := .sent (sentWord s.seq.sent) })

/-- The end of a wire command that stands alone in a sequencer: it is no request and has no response (log 9). -/
def microReturn (s : State) : Out := .next (s.setSeq Seq.idle)

/-! ## FSM ownership and the protocol skeleton (41_protocol.md R153) -/

/-- The micro-step ENTRY: `Acquire(FSM)` and, in the same step, the transition guard. A held port's state does not
change. -/
def protocolEntry (k : Proto) (s : State) : Out :=
  match s.fsmOwner with
  | some _ => .next s
  | none =>
    if allowedFrom k s.dstate then
      let s1 : State := { s with fsmOwner := some s.cur, dstate := entryState k s.dstate }
      .next (s1.advance 1)
    else
      let s1 : State := { s with fsmOwner := some s.cur, seqErr := true }
      .next (s1.setSeq { s.seq with pc := s.seq.pc + 1, sq := true })

/-- The micro-step EXIT: the end state if the request was allowed, `Release(FSM)`, and the response. -/
def protocolExit (k : Proto) (s : State) : Out :=
  if s.fsmOwner = some s.cur then
    let s1 : State := { s with fsmOwner := none, dstate := if s.seq.sq then s.dstate else endState k }
    .next (s1.respond { code := .ok, xf := s.seq.xf, sq := s.seq.sq, data := .empty })
  else .refused .releaseNotOwner

/-- The first micro-step of REFRESH: `if allowed: DSTATE <- REFRESHING` (R163). -/
def microStartRefresh (s : State) : Out :=
  let s1 : State := { s with dstate := if s.seq.sq then s.dstate else .refreshing }
  .next (s1.advance 1)

/-! ## Accepting a request (30_encoding.md R92) -/

/-- The running port's next request leaves its inbox. -/
def State.popInbox (s : State) : State := s.setPort { s.port with inbox := s.port.inbox.tail }

/-- A legal request is accepted: its instruction is in progress at `pc` 0 with both flags 0 (10_state.md R21). -/
def State.accept (s : State) (i : Instr) : State :=
  s.popInbox.setSeq { Seq.idle with op := .busy i }

/-- An illegal request's only effect: its response (60_exceptions.md R263). -/
def State.respondIllegal (s : State) : State := s.popInbox.respond (refuseResp .illegal .empty)

/-- The state with port `p` running. -/
def State.running (s : State) (p : Nat) : State := { s with cur := p }

/-- The state in which port 0 is idle with the request `r` first in its inbox, or runs the wire command `i`, and moves
next (log 4, log 9). -/
def State.present (s : State) (q : Port) : State :=
  { s with ports := s.ports.set 0 q, env := { s.env with sched := 0 :: s.env.sched } }

/-- The state in which the very next step fetches and runs the instruction of code `c`. -/
def State.withCode (s : State) (c : Code) : State :=
  let q := s.portAt 0
  match c with
  | .request w bl => s.present { q with seq := Seq.idle, inbox := { word := w, blocks := bl } :: q.inbox }
  | .wire _ _ =>
    match decode c with
    | .ok i => s.present { q with seq := { Seq.idle with op := .busy i } }
    | .error _ => s

end Sys2Proof.Machine
end

