-- ==== Sys2Proof/Machine/Palette.lean ====
section
/-! DEFINITION. The PaletteEncoder (42_palette.md). -/

namespace Sys2Proof.Machine

/-- The square of the difference of two components, over the integers (R210). -/
def sqDiff (a b : Byte) : Nat := ((a.toNat : Int) - (b.toNat : Int)).natAbs ^ 2

/-- `dist` (R210). -/
def colourDist (p q : RGB) : Nat := sqDiff p.r q.r + sqDiff p.g q.g + sqDiff p.b q.b

/-- The scan of `nearest` from position `i` with the best position and distance so far (R211). -/
def nearestFrom (c : RGB) (best bestDist i : Nat) : List RGB → Nat
  | [] => best
  | q :: qs =>
    if colourDist c q < bestDist then nearestFrom c i (colourDist c q) (i + 1) qs
    else nearestFrom c best bestDist (i + 1) qs

/-- `nearest(c, list)`: the lowest position with the smallest distance (R211). -/
def nearest (c : RGB) : List RGB → Nat
  | [] => 0
  | q :: qs => nearestFrom c 0 (colourDist c q) 1 qs

/-- One role's claim in `BIND_ROLES`: the closest remaining palette position (R212). -/
def claimRole (rgb : Three RGB) (pal : List RGB) (remaining : List Nat) (role : Role) : Option Nat :=
  remaining[nearest (rgb.ofRole role) (remaining.filterMap fun i => pal[i]?)]?

/-- The claims of `BIND_ROLES` in the fixed priority order (R212). -/
def bindFrom (rgb : Three RGB) (pal : List RGB) : List Role → List Nat → Three Role → Three Role
  | [], _, b => b
  | role :: roles, remaining, b =>
    match claimRole rgb pal remaining role with
    | some j => bindFrom rgb pal roles (remaining.filter (· ≠ j)) (b.set j role)
    | none => b

/-- `BIND_ROLES(pal)` on the role binding `b` (R212). -/
def bindRoles (rgb : Three RGB) (pal : List RGB) (b : Three Role) : Three Role :=
  bindFrom rgb pal [.white, .black, .highlight] [0, 1, 2] b

/-- The tag `ExactPalette` (R213). -/
def exactPalette (src : Source) : Bool := decide (src.pal.length = 3)

/-- `CLASSIFY(c)` (R214). -/
def classify (rgb : Three RGB) (c : RGB) : Role :=
  match nearest c rgb.toList with
  | 0 => .white
  | 1 => .black
  | _ => .highlight

/-- `ENCODE(SRC, x, y)`; none where it raises `Fault(SRC_INDEX)` (R215 to R217). -/
def encodePixel (rgb : Three RGB) (b : Three Role) (src : Source) (x y : Nat) : Option Role :=
  if sourceContains src x y then
    if exactPalette src then (pixIndex src x y).bind b.get?
    else if src.pal.isEmpty then (pixColour src x y).map (classify rgb)
    else ((pixIndex src x y).bind fun i => src.pal[i]?).map (classify rgb)
  else some .white

end Sys2Proof.Machine
end

