-- ==== Sys2Proof/Machine/FrameBuffer.lean ====
section
/-! DEFINITION. The FrameBuffer requests of one micro-step and the micro-steps of FB_DRAW (43_framebuffer.md,
20_memory.md R70). -/

namespace Sys2Proof.Machine

/-- FB_SET (R231): out of bounds a no-op, else the race check and WRITE_PIXEL, in one step. -/
def execFbSet (x y : BitVec 12) (role : Role) (s : State) : Out :=
  if inBounds s.cfg x.toNat y.toNat then
    let s1 : State := { s with fb := (raceOnWrite s.fb s.cur).writePixel s.cfg x.toNat y.toNat role }
    .next (s1.respond (okResp .empty))
  else .next (s.respond (okResp .empty))

/-- FB_GET (R232): out of bounds `OOB` with a drawn role code, else the race check and the pixel's role, in one step. -/
def execFbGet (x y : BitVec 12) (s : State) : Out :=
  if inBounds s.cfg x.toNat y.toNat then
    let s1 : State := { s with fb := raceOnRead s.fb s.cur }
    match roleOfPair (s.fb.pixelPair s.cfg x.toNat y.toNat) with
    | some r => .next (s1.respond (okResp (.role r)))
    | none => .next (s1.raiseFault .invalidPixel)
  else
    let d := s.drawRole
    .next (d.2.respond (refuseResp .oob (.role d.1)))

/-- FB_CLEAR (R234): the race check and both planes filled, in one step. -/
def execFbClear (s : State) : Out :=
  let s1 : State := { s with fb := (raceOnWrite s.fb s.cur).cleared }
  .next (s1.respond (okResp .empty))

/-- The START step of FB_DRAW (R236): the race check, the owner, and on the exact path the role binding. -/
def drawStart (src : Source) (s : State) : Out :=
  let s1 : State := { s with fb := { raceOnDraw s.fb with drawOwner := some s.cur } }
  let b := if exactPalette src then bindRoles s.roleRgb src.pal s.port.bind else s.port.bind
  .next (s1.setPort { s.port with seq := { s.seq with pc := s.seq.pc + 1 }, bind := b })

/-- The step of FB_DRAW for the `k`-th destination pixel in row-major order (R236). -/
def drawPixel (src : Source) (k : Nat) (s : State) : Out :=
  let x := k % s.cfg.width
  let y := k / s.cfg.width
  match encodePixel s.roleRgb s.port.bind src x y with
  | some role =>
    let s1 : State := { s with fb := s.fb.writePixel s.cfg x y role }
    .next (s1.advance 1)
  | none => .next (s.raiseFault .srcIndex)

/-- The END step of FB_DRAW (R236). -/
def drawEnd (s : State) : Out :=
  let s1 : State := { s with fb := { s.fb with drawOwner := none } }
  .next (s1.respond (okResp .empty))

end Sys2Proof.Machine
end

