-- ==== Sys2Proof/Machine/Sequencer.lean ====
section
/-! DEFINITION. The micro-steps a request's fixed step list is made of (00_scope.md R15, R17; 10_state.md R21), what
each does, and the run of the one at the port's `pc`. -/

namespace Sys2Proof.Machine

/-- A micro-step: one line of the pseudocode of 40_channel.md, 41_protocol.md and 43_framebuffer.md. -/
inductive Micro where
  /-- `Acquire(BUS)` -/
  | acquire
  /-- `Release(BUS)` of the reset pulse -/
  | release
  /-- `Release(BUS)` of a logical command -/
  | releaseCmd
  /-- `PinWrite(pin, level)` -/
  | pin (p : Pin) (lvl : Level)
  /-- `Delay(name)` -/
  | delay (d : DelayName)
  /-- `SampleBusy` of BUSY_WAIT -/
  | sampleBusy
  /-- `Delay(T_POLL)` of BUSY_WAIT -/
  | pollDelay
  /-- `Xfer([op])`; on failure `skip` micro-steps are left out -/
  | xferOp (op : Byte) (skip : Nat)
  /-- `Xfer(chunk(k))`; on failure `skip` micro-steps are left out -/
  | xferChunk (src : Payload) (k skip : Nat)
  /-- `LOG_XFER(what, sent)` -/
  | logXfer (what : LogWhat)
  /-- ENTRY of a protocol request -/
  | entry (k : Proto)
  /-- EXIT of a protocol request -/
  | exit (k : Proto)
  /-- `if allowed: DSTATE <- REFRESHING` -/
  | startRefresh
  /-- OPEN_WINDOW of DISPLAY_FB -/
  | openWindow
  /-- CLOSE_WINDOW of DISPLAY_FB -/
  | closeWindow
  /-- `return resp(OK, not ok, 0, sent)` of CH_CMD and CH_DATA -/
  | respondSent
  /-- the end of a wire command that stands alone -/
  | ret
  /-- START of FB_DRAW -/
  | drawStart (src : Source)
  /-- the `k`-th pixel of FB_DRAW -/
  | drawPixel (src : Source) (k : Nat)
  /-- END of FB_DRAW -/
  | drawEnd
deriving DecidableEq, Repr

/-- OPEN_WINDOW: the race check, then `FB_UPLOAD_OWNER <- p` (41_protocol.md R165, 20_memory.md R76). -/
def microOpenWindow (s : State) : Out :=
  let s1 : State := { s with fb := { raceOnOpen s.fb with uploadOwner := some s.cur } }
  .next (s1.advance 1)

/-- CLOSE_WINDOW: `FB_UPLOAD_OWNER <- none` (R165). -/
def microCloseWindow (s : State) : Out :=
  let s1 : State := { s with fb := { s.fb with uploadOwner := none } }
  .next (s1.advance 1)

/-- What a micro-step does when the running port takes it. -/
def runMicro : Micro → State → Out
  | .acquire, s => microAcquire s
  | .release, s => microRelease s
  | .releaseCmd, s => microReleaseCmd s
  | .pin p lvl, s => microPin p lvl s
  | .delay d, s => microDelay d s
  | .sampleBusy, s => microSampleBusy s
  | .pollDelay, s => microPollDelay s
  | .xferOp op skip, s => microXferOp op skip s
  | .xferChunk src k skip, s => microXferChunk src k skip s
  | .logXfer what, s => microLogXfer what s
  | .entry k, s => protocolEntry k s
  | .exit k, s => protocolExit k s
  | .startRefresh, s => microStartRefresh s
  | .openWindow, s => microOpenWindow s
  | .closeWindow, s => microCloseWindow s
  | .respondSent, s => microRespondSent s
  | .ret, s => microReturn s
  | .drawStart src, s => drawStart src s
  | .drawPixel src k, s => drawPixel src k s
  | .drawEnd, s => drawEnd s

/-- The micro-step `m` if there is one; a `pc` beyond the step list has no meaning (log 13). -/
def runStep (m : Option Micro) (s : State) : Out :=
  match m with
  | some m => runMicro m s
  | none => .refused .noMicroStep

/-- The micro-step of the step list `l` at the running port's `pc` (R21). -/
def runSteps (l : List Micro) (s : State) : Out := runStep l[s.seq.pc]? s

/-! ## FB_DRAW's step list (43_framebuffer.md R236) -/

/-- The micro-step of FB_DRAW at `pc`: START, one for each of `WIDTH * HEIGHT` pixels, END. It is given by `pc` and not
as a list, so that a large panel's draw can be run. -/
def drawStepAt (c : Cfg) (src : Source) (pc : Nat) : Option Micro :=
  if pc = 0 then some (.drawStart src)
  else if pc ≤ c.width * c.height then some (.drawPixel src (pc - 1))
  else if pc = c.width * c.height + 1 then some .drawEnd
  else none

/-- FB_DRAW. -/
def execFbDraw (src : Source) (s : State) : Out := runStep (drawStepAt s.cfg src s.seq.pc) s

end Sys2Proof.Machine
end

