-- ==== Sys2Proof/Machine/Channel.lean ====
section
/-! DEFINITION. The CommandChannel: the step lists of DATA_BODY, SEND_COMMAND and SEND_DATA (40_channel.md R121 to
R128), and the host requests CH_CMD and CH_DATA (R129, R130). -/

namespace Sys2Proof.Machine

/-- `DATA_BODY(src)`: one transfer a chunk, in ascending order (R121, R123). A failed chunk leaves out the chunks after
it. -/
def dataBody (c : Cfg) (src : Payload) : List Micro :=
  let n := nchunks c (payloadLen c src)
  (List.range n).map fun k => .xferChunk src k (n - 1 - k)

/-- `SEND_COMMAND(op, src)` (R124). A failed opcode transfer leaves out `PinWrite(DC, 1)` and the payload. -/
def sendCommand (c : Cfg) (op : Byte) (src : Payload) : List Micro :=
  [.acquire, .pin .cs false, .pin .dc false, .xferOp op (1 + nchunks c (payloadLen c src)), .pin .dc true] ++
    dataBody c src ++ [.pin .cs true, .releaseCmd, .logXfer (.opcode op)]

/-- `SEND_DATA(src)` (R128). -/
def sendData (c : Cfg) (src : Payload) : List Micro :=
  [.acquire, .pin .cs false, .pin .dc true] ++ dataBody c src ++ [.pin .cs true, .releaseCmd, .logXfer .data]

/-- The step list of CH_CMD (R129). -/
def chCmdSteps (c : Cfg) (opcode : Byte) (payload : List Byte) : List Micro :=
  sendCommand c opcode (.bytes payload) ++ [.respondSent]

/-- The step list of CH_DATA (R130). -/
def chDataSteps (c : Cfg) (payload : List Byte) : List Micro := sendData c (.bytes payload) ++ [.respondSent]

/-- CH_CMD. -/
def execChCmd (opcode : Byte) (payload : List Byte) (s : State) : Out :=
  runSteps (chCmdSteps s.cfg opcode payload) s

/-- CH_DATA. -/
def execChData (payload : List Byte) (s : State) : Out := runSteps (chDataSteps s.cfg payload) s

end Sys2Proof.Machine
end

