-- ==== Sys2Proof/Machine/Wire.lean ====
section
/-! DEFINITION. The wire commands (41_protocol.md section 4): each is a SEND_COMMAND with its row's opcode and payload
(30_encoding.md R100, R101). `w<Name>Steps` is the step list the protocol requests are built from; `execW<Name>` runs
the command alone in a sequencer (log 9). -/

namespace Sys2Proof.Machine

/-- A wire command alone in a sequencer: its step list, then the return (log 9). -/
def runWire (l : List Micro) (s : State) : Out := runSteps (l ++ [.ret]) s

/-- `0x12` W_SWRESET, payload fixed to `[]` (R170). -/
def wSwresetSteps (c : Cfg) : List Micro := sendCommand c 0x12 (.bytes [])

/-- W_SWRESET alone. -/
def execWSwreset (s : State) : Out := runWire (wSwresetSteps s.cfg) s

/-- `0x46` W_AUTOWRITE_HL (R171). -/
def wAutowriteHlSteps (c : Cfg) (payload : List Byte) : List Micro := sendCommand c 0x46 (.bytes payload)

/-- W_AUTOWRITE_HL alone. -/
def execWAutowriteHl (payload : List Byte) (s : State) : Out := runWire (wAutowriteHlSteps s.cfg payload) s

/-- `0x47` W_AUTOWRITE_BW (R172). -/
def wAutowriteBwSteps (c : Cfg) (payload : List Byte) : List Micro := sendCommand c 0x47 (.bytes payload)

/-- W_AUTOWRITE_BW alone. -/
def execWAutowriteBw (payload : List Byte) (s : State) : Out := runWire (wAutowriteBwSteps s.cfg payload) s

/-- `0x0C` W_SOFTSTART (R173). -/
def wSoftstartSteps (c : Cfg) (payload : List Byte) : List Micro := sendCommand c 0x0C (.bytes payload)

/-- W_SOFTSTART alone. -/
def execWSoftstart (payload : List Byte) (s : State) : Out := runWire (wSoftstartSteps s.cfg payload) s

/-- `0x01` W_GATE (R174). -/
def wGateSteps (c : Cfg) (payload : List Byte) : List Micro := sendCommand c 0x01 (.bytes payload)

/-- W_GATE alone. -/
def execWGate (payload : List Byte) (s : State) : Out := runWire (wGateSteps s.cfg payload) s

/-- `0x11` W_DATA_ENTRY (R175). -/
def wDataEntrySteps (c : Cfg) (payload : List Byte) : List Micro := sendCommand c 0x11 (.bytes payload)

/-- W_DATA_ENTRY alone. -/
def execWDataEntry (payload : List Byte) (s : State) : Out := runWire (wDataEntrySteps s.cfg payload) s

/-- `0x44` W_RAMX_WINDOW (R176). -/
def wRamxWindowSteps (c : Cfg) (payload : List Byte) : List Micro := sendCommand c 0x44 (.bytes payload)

/-- W_RAMX_WINDOW alone. -/
def execWRamxWindow (payload : List Byte) (s : State) : Out := runWire (wRamxWindowSteps s.cfg payload) s

/-- `0x45` W_RAMY_WINDOW (R177). -/
def wRamyWindowSteps (c : Cfg) (payload : List Byte) : List Micro := sendCommand c 0x45 (.bytes payload)

/-- W_RAMY_WINDOW alone. -/
def execWRamyWindow (payload : List Byte) (s : State) : Out := runWire (wRamyWindowSteps s.cfg payload) s

/-- `0x3C` W_BORDER (R178). -/
def wBorderSteps (c : Cfg) (payload : List Byte) : List Micro := sendCommand c 0x3C (.bytes payload)

/-- W_BORDER alone. -/
def execWBorder (payload : List Byte) (s : State) : Out := runWire (wBorderSteps s.cfg payload) s

/-- `0x18` W_TEMP_SENSOR (R179). -/
def wTempSensorSteps (c : Cfg) (payload : List Byte) : List Micro := sendCommand c 0x18 (.bytes payload)

/-- W_TEMP_SENSOR alone. -/
def execWTempSensor (payload : List Byte) (s : State) : Out := runWire (wTempSensorSteps s.cfg payload) s

/-- `0x22` W_UPDATE_CTRL2 (R180). -/
def wUpdateCtrl2Steps (c : Cfg) (payload : List Byte) : List Micro := sendCommand c 0x22 (.bytes payload)

/-- W_UPDATE_CTRL2 alone. -/
def execWUpdateCtrl2 (payload : List Byte) (s : State) : Out := runWire (wUpdateCtrl2Steps s.cfg payload) s

/-- `0x20` W_MASTER_ACT, payload fixed to `[]` (R181). -/
def wMasterActSteps (c : Cfg) : List Micro := sendCommand c 0x20 (.bytes [])

/-- W_MASTER_ACT alone. -/
def execWMasterAct (s : State) : Out := runWire (wMasterActSteps s.cfg) s

/-- `0x24` W_WRITE_BW (R182). -/
def wWriteBwSteps (c : Cfg) (src : Payload) : List Micro := sendCommand c 0x24 src

/-- W_WRITE_BW alone. -/
def execWWriteBw (src : Payload) (s : State) : Out := runWire (wWriteBwSteps s.cfg src) s

/-- `0x26` W_WRITE_HL (R183). -/
def wWriteHlSteps (c : Cfg) (src : Payload) : List Micro := sendCommand c 0x26 src

/-- W_WRITE_HL alone. -/
def execWWriteHl (src : Payload) (s : State) : Out := runWire (wWriteHlSteps s.cfg src) s

/-- `0x4E` W_RAMX_COUNTER (R184). -/
def wRamxCounterSteps (c : Cfg) (payload : List Byte) : List Micro := sendCommand c 0x4E (.bytes payload)

/-- W_RAMX_COUNTER alone. -/
def execWRamxCounter (payload : List Byte) (s : State) : Out := runWire (wRamxCounterSteps s.cfg payload) s

/-- `0x4F` W_RAMY_COUNTER (R185). -/
def wRamyCounterSteps (c : Cfg) (payload : List Byte) : List Micro := sendCommand c 0x4F (.bytes payload)

/-- W_RAMY_COUNTER alone. -/
def execWRamyCounter (payload : List Byte) (s : State) : Out := runWire (wRamyCounterSteps s.cfg payload) s

/-- `0x10` W_DEEP_SLEEP, payload fixed to `[0x01]` (R186). -/
def wDeepSleepSteps (c : Cfg) : List Micro := sendCommand c 0x10 (.bytes [0x01])

/-- W_DEEP_SLEEP alone. -/
def execWDeepSleep (s : State) : Out := runWire (wDeepSleepSteps s.cfg) s

end Sys2Proof.Machine
end

