-- ==== Sys2Proof/Machine/Protocol.lean ====
section
/-! DEFINITION. The DisplayProtocol: its sub-sequences (41_protocol.md R154 to R163) as step lists, and the requests
INIT, DISPLAY, DISPLAY_FB, CLEAR, SLEEP and STATUS (R160, R164 to R168). -/

namespace Sys2Proof.Machine

/-- `RESET_PULSE` (R154, 70_reset_and_hazards.md R295). -/
def resetPulse : List Micro :=
  [.acquire, .pin .rst true, .delay .rstH1, .pin .rst false, .delay .rstL, .pin .rst true, .delay .rstH2, .release]

/-- `BUSY_WAIT` (R155): sample, poll delay (then back to the sample), settle delay. -/
def busyWait : List Micro := [.sampleBusy, .pollDelay, .delay .settle]

/-- `INIT_SEQ`, rows 1 to 14 (R159): each row's wire command, and its BUSY_WAIT where the table has one. -/
def initSeq (c : Cfg) : List Micro :=
  wSwresetSteps c ++ busyWait ++
  wAutowriteHlSteps c c.pAutowriteHl ++ busyWait ++
  wAutowriteBwSteps c c.pAutowriteBw ++ busyWait ++
  wSoftstartSteps c c.pSoftstart ++
  wGateSteps c c.pGate ++
  wDataEntrySteps c c.pDataEntry ++
  wRamxWindowSteps c c.pRamxWindow ++
  wRamyWindowSteps c c.pRamyWindow ++
  wBorderSteps c c.pBorder ++
  wTempSensorSteps c c.pTempSensor ++
  wUpdateCtrl2Steps c c.pLoadMode ++
  wMasterActSteps c ++ busyWait ++
  wRamxCounterSteps c c.pRamxOrigin ++
  wRamyCounterSteps c c.pRamyOrigin

/-- `UPLOAD(srcB, srcH)` (R161). -/
def uploadSteps (c : Cfg) (srcB srcH : Payload) : List Micro :=
  wRamyCounterSteps c c.pRamyOrigin ++ wWriteBwSteps c srcB ++ wWriteHlSteps c srcH

/-- `REFRESH()` (R163). -/
def refreshSteps (c : Cfg) : List Micro :=
  [.startRefresh] ++ wUpdateCtrl2Steps c [c.pRefreshMode] ++ wMasterActSteps c ++ [.delay .act] ++ busyWait

/-- The step list of INIT (R160). -/
def initSteps (c : Cfg) : List Micro := [.entry .init] ++ resetPulse ++ initSeq c ++ [.exit .init]

/-- The step list of DISPLAY after its length check (R164). -/
def displaySteps (c : Cfg) (b h : List Byte) : List Micro :=
  [.entry .display] ++ uploadSteps c (.bytes (padB c b)) (.bytes (padH c h)) ++ refreshSteps c ++ [.exit .display]

/-- The step list of DISPLAY_FB (R165). -/
def displayFbSteps (c : Cfg) : List Micro :=
  [.entry .display] ++ wRamyCounterSteps c c.pRamyOrigin ++ [.openWindow] ++ wWriteBwSteps c (.plane .black) ++
    wWriteHlSteps c (.plane .hl) ++ [.closeWindow] ++ refreshSteps c ++ [.exit .display]

/-- The step list of SLEEP (R167). -/
def sleepSteps (c : Cfg) : List Micro := [.entry .sleep] ++ wDeepSleepSteps c ++ [.exit .sleep]

/-- INIT. -/
def execInit (s : State) : Out := runSteps (initSteps s.cfg) s

/-- A buffer is longer than `PLANE_SIZE` (60_exceptions.md R264). -/
def tooLong (c : Cfg) (b h : List Byte) : Bool :=
  decide (c.planeSize < b.length) || decide (c.planeSize < h.length)

/-- DISPLAY: the length check before the ENTRY step (R164, 60_exceptions.md R264), else the micro-step at `pc`. -/
def execDisplay (b h : List Byte) (s : State) : Out :=
  if s.seq.pc = 0 ∧ tooLong s.cfg b h = true then .next (s.respond (refuseResp .len .empty))
  else runSteps (displaySteps s.cfg b h) s

/-- DISPLAY_FB. -/
def execDisplayFb (s : State) : Out := runSteps (displayFbSteps s.cfg) s

/-- CLEAR: DISPLAY with two empty buffers, for which `LEN` cannot occur (R166). -/
def execClear (s : State) : Out := runSteps (displaySteps s.cfg [] []) s

/-- SLEEP. -/
def execSleep (s : State) : Out := runSteps (sleepSteps s.cfg) s

/-- STATUS: the status record, read in one step (R168). -/
def execStatus (s : State) : Out := .next (s.respond (okResp (statusRecord s)))

end Sys2Proof.Machine
end

