-- ==== Sys2Proof/Machine/Dispatch.lean ====
section
/-! DEFINITION. The dispatch: one arm per instruction. -/

namespace Sys2Proof.Machine

/-- The micro-step instruction `i` takes at the running port's `pc`. -/
def exec (i : Instr) (s : State) : Host.Outcome State Fault Refusal :=
  match i with
  | .init => Sys2Proof.Machine.execInit s
  | .display b h => Sys2Proof.Machine.execDisplay b h s
  | .displayFb => Sys2Proof.Machine.execDisplayFb s
  | .clear => Sys2Proof.Machine.execClear s
  | .sleep => Sys2Proof.Machine.execSleep s
  | .status => Sys2Proof.Machine.execStatus s
  | .fbSet x y role => Sys2Proof.Machine.execFbSet x y role s
  | .fbGet x y => Sys2Proof.Machine.execFbGet x y s
  | .fbClear => Sys2Proof.Machine.execFbClear s
  | .fbDraw src => Sys2Proof.Machine.execFbDraw src s
  | .chCmd opcode payload => Sys2Proof.Machine.execChCmd opcode payload s
  | .chData payload => Sys2Proof.Machine.execChData payload s
  | .wSwreset => Sys2Proof.Machine.execWSwreset s
  | .wAutowriteHl payload => Sys2Proof.Machine.execWAutowriteHl payload s
  | .wAutowriteBw payload => Sys2Proof.Machine.execWAutowriteBw payload s
  | .wSoftstart payload => Sys2Proof.Machine.execWSoftstart payload s
  | .wGate payload => Sys2Proof.Machine.execWGate payload s
  | .wDataEntry payload => Sys2Proof.Machine.execWDataEntry payload s
  | .wRamxWindow payload => Sys2Proof.Machine.execWRamxWindow payload s
  | .wRamyWindow payload => Sys2Proof.Machine.execWRamyWindow payload s
  | .wBorder payload => Sys2Proof.Machine.execWBorder payload s
  | .wTempSensor payload => Sys2Proof.Machine.execWTempSensor payload s
  | .wUpdateCtrl2 payload => Sys2Proof.Machine.execWUpdateCtrl2 payload s
  | .wMasterAct => Sys2Proof.Machine.execWMasterAct s
  | .wWriteBw src => Sys2Proof.Machine.execWWriteBw src s
  | .wWriteHl src => Sys2Proof.Machine.execWWriteHl src s
  | .wRamxCounter payload => Sys2Proof.Machine.execWRamxCounter payload s
  | .wRamyCounter payload => Sys2Proof.Machine.execWRamyCounter payload s
  | .wDeepSleep => Sys2Proof.Machine.execWDeepSleep s

end Sys2Proof.Machine
end

