-- ==== Sys2Proof/Machine/Fetch.lean ====
section
/-! DEFINITION. Which port moves next and which instruction it runs (00_scope.md R7, R15; 30_encoding.md R92, R99). -/

namespace Sys2Proof.Machine

/-- What a step runs: the micro-step of an instruction from a state, or nothing more than reaching a state. -/
inductive Fetched where
  | run (i : Instr) (s : State)
  | rest (s : State)
deriving DecidableEq, Repr

/-- The running port's next instruction. A port with a request in progress runs that request's instruction. An idle port
decodes the next request its host sends and runs it in the same step; an illegal one is answered (60_exceptions.md R263,
log 7). An idle port with no request, and a port that has raised a fault, take no micro-step (00_scope.md R14). -/
def fetchPort (s : State) : Fetched :=
  match s.seq.op with
  | .busy i => .run i s
  | .stopped => .rest s
  | .idle =>
    match s.port.inbox with
    | [] => .rest s
    | r :: _ =>
      match decode (.request r.word r.blocks) with
      | .ok i => .run i (s.accept i)
      | .error _ => .rest s.respondIllegal

/-- The port that moves next and its instruction. A choice that names no port changes nothing of the block (log 1). -/
def fetch (s : State) : Fetched :=
  let d := s.drawPort
  if d.1 < s.ports.length then fetchPort (d.2.running d.1) else .rest d.2

end Sys2Proof.Machine
end

