-- ==== Sys2Proof/Safety.lean ====
section
/-! DEFINITION. What claims about runs are said in: an instruction run alone to its end, the events it emits when nothing
fails, the premises on the environment's draws (00_scope.md R10), and the invariants that every step keeps. -/

namespace Sys2Proof.Machine

/-! ## Runs -/

/-- `n` micro-steps of instruction `i` taken one after another by the running port, no other port moving in between. -/
def execN (i : Instr) : Nat → State → Out
  | 0, s => .next s
  | n + 1, s =>
    match exec i s with
    | .next t => execN i n t
    | o => o

/-- A run is safe while no fault has been raised (60_exceptions.md R268). -/
def State.safe (s : State) : Prop := s.fault = none

/-! ## Step lists by instruction -/

/-- The fixed step list of an instruction (10_state.md R21). The requests of one micro-step have none, and FB_DRAW's is
given by `drawStepAt`. -/
def stepList (c : Cfg) : Instr → List Micro
  | .init => initSteps c
  | .display b h => displaySteps c b h
  | .displayFb => displayFbSteps c
  | .clear => displaySteps c [] []
  | .sleep => sleepSteps c
  | .status => []
  | .fbSet _ _ _ => []
  | .fbGet _ _ => []
  | .fbClear => []
  | .fbDraw _ => []
  | .chCmd opcode payload => chCmdSteps c opcode payload
  | .chData payload => chDataSteps c payload
  | .wSwreset => wSwresetSteps c ++ [.ret]
  | .wAutowriteHl p => wAutowriteHlSteps c p ++ [.ret]
  | .wAutowriteBw p => wAutowriteBwSteps c p ++ [.ret]
  | .wSoftstart p => wSoftstartSteps c p ++ [.ret]
  | .wGate p => wGateSteps c p ++ [.ret]
  | .wDataEntry p => wDataEntrySteps c p ++ [.ret]
  | .wRamxWindow p => wRamxWindowSteps c p ++ [.ret]
  | .wRamyWindow p => wRamyWindowSteps c p ++ [.ret]
  | .wBorder p => wBorderSteps c p ++ [.ret]
  | .wTempSensor p => wTempSensorSteps c p ++ [.ret]
  | .wUpdateCtrl2 p => wUpdateCtrl2Steps c p ++ [.ret]
  | .wMasterAct => wMasterActSteps c ++ [.ret]
  | .wWriteBw p => wWriteBwSteps c p ++ [.ret]
  | .wWriteHl p => wWriteHlSteps c p ++ [.ret]
  | .wRamxCounter p => wRamxCounterSteps c p ++ [.ret]
  | .wRamyCounter p => wRamyCounterSteps c p ++ [.ret]
  | .wDeepSleep => wDeepSleepSteps c ++ [.ret]

/-- The micro-step of instruction `i` at `pc`. -/
def stepAt (c : Cfg) (i : Instr) (pc : Nat) : Option Micro :=
  match i with
  | .fbDraw src => drawStepAt c src pc
  | i => (stepList c i)[pc]?

/-- The protocol requests (41_protocol.md R150). -/
def isProtocol : Instr → Bool
  | .init | .display _ _ | .displayFb | .clear | .sleep => true
  | .status | .fbSet _ _ _ | .fbGet _ _ | .fbClear | .fbDraw _ | .chCmd _ _ | .chData _ => false
  | .wSwreset | .wAutowriteHl _ | .wAutowriteBw _ | .wSoftstart _ | .wGate _ | .wDataEntry _ | .wRamxWindow _ | .wRamyWindow _
  | .wBorder _ | .wTempSensor _ | .wUpdateCtrl2 _ | .wMasterAct | .wWriteBw _ | .wWriteHl _ | .wRamxCounter _
  | .wRamyCounter _ | .wDeepSleep => false

/-- The opcode and payload source of a wire command (30_encoding.md R101); none for a request. -/
def wireCommand : Instr → Option (Byte × Payload)
  | .wSwreset => some (0x12, .bytes [])
  | .wAutowriteHl p => some (0x46, .bytes p)
  | .wAutowriteBw p => some (0x47, .bytes p)
  | .wSoftstart p => some (0x0C, .bytes p)
  | .wGate p => some (0x01, .bytes p)
  | .wDataEntry p => some (0x11, .bytes p)
  | .wRamxWindow p => some (0x44, .bytes p)
  | .wRamyWindow p => some (0x45, .bytes p)
  | .wBorder p => some (0x3C, .bytes p)
  | .wTempSensor p => some (0x18, .bytes p)
  | .wUpdateCtrl2 p => some (0x22, .bytes p)
  | .wMasterAct => some (0x20, .bytes [])
  | .wWriteBw p => some (0x24, p)
  | .wWriteHl p => some (0x26, p)
  | .wRamxCounter p => some (0x4E, .bytes p)
  | .wRamyCounter p => some (0x4F, .bytes p)
  | .wDeepSleep => some (0x10, .bytes [0x01])
  | .init | .display _ _ | .displayFb | .clear | .sleep | .status | .fbSet _ _ _ | .fbGet _ _ | .fbClear | .fbDraw _ | .chCmd _ _ | .chData _ => none

/-! ## What a request word must be (30_encoding.md R91, R94, R95) -/

/-- The kinds of operand block (R98). -/
inductive BlockKind where
  | b
  | h
  | payload
  | src
deriving DecidableEq, Repr

/-- The kind of a block. -/
def blockKind : Block → BlockKind
  | .b _ => .b
  | .h _ => .h
  | .payload _ => .payload
  | .src _ => .src

/-- The operand blocks of an operation code (R94). -/
def requiredBlocks (op : Nat) : List BlockKind :=
  if op = 0x2 then [.b, .h]
  else if op = 0xB then [.src]
  else if op = 0xC ∨ op = 0xD then [.payload]
  else []

/-- The operation code of a request word, W[31:28], as a number (R91). -/
def opNumber (w : Word) : Nat := w.toNat / 2 ^ 28

/-- The bits of a request word that R91 requires to be 0: W[27:26] of FB_SET, W[27:24] of FB_GET, W[27:8] of CH_CMD, W[27:0]
of every other operation. -/
def requiredZero (w : Word) : Nat :=
  if opNumber w = 0x8 then w.toNat / 2 ^ 26 % 2 ^ 2
  else if opNumber w = 0x9 then w.toNat / 2 ^ 24 % 2 ^ 4
  else if opNumber w = 0xC then w.toNat / 2 ^ 8 % 2 ^ 20
  else w.toNat % 2 ^ 28

/-! ## Events (00_scope.md R9) -/

/-- The payload transfers of a source whose chunks all succeed (40_channel.md R121, R123). -/
def chunkEvents (c : Cfg) (f : FrameBuf) (p : Nat) (src : Payload) : List Event :=
  (List.range (nchunks c (payloadLen c src))).map fun k =>
    .xfer p (payloadChunk c f src k) (payloadChunk c f src k).length true

/-- A SEND_COMMAND of port `p` in which nothing fails (R124). -/
def commandEvents (c : Cfg) (f : FrameBuf) (p : Nat) (op : Byte) (src : Payload) : List Event :=
  [.lock p .acq, .pin .cs false, .pin .dc false, .xfer p [op] 1 true, .pin .dc true] ++ chunkEvents c f p src ++
    [.pin .cs true, .lock p .rel]

/-- A SEND_DATA of port `p` in which nothing fails (R128). -/
def dataEvents (c : Cfg) (f : FrameBuf) (p : Nat) (src : Payload) : List Event :=
  [.lock p .acq, .pin .cs false, .pin .dc true] ++ chunkEvents c f p src ++ [.pin .cs true, .lock p .rel]

/-- The reset pulse of port `p` (41_protocol.md R154). -/
def pulseEvents (p : Nat) : List Event :=
  [.lock p .acq, .pin .rst true, .delay .rstH1, .pin .rst false, .delay .rstL, .pin .rst true, .delay .rstH2,
    .lock p .rel]

/-- A BUSY_WAIT whose first `j` samples are not ready and whose next one is (R158). -/
def waitEvents (ready : Level) (j : Nat) : List Event :=
  (List.replicate j [Event.busy !ready, .delay .poll]).flatten ++ [.busy ready, .delay .settle]

/-- The rows of INIT_SEQ as opcode, payload and whether a BUSY_WAIT follows (R159). -/
def initRows (c : Cfg) : List (Byte × List Byte × Bool) :=
  [(0x12, [], true), (0x46, c.pAutowriteHl, true), (0x47, c.pAutowriteBw, true), (0x0C, c.pSoftstart, false),
    (0x01, c.pGate, false), (0x11, c.pDataEntry, false), (0x44, c.pRamxWindow, false), (0x45, c.pRamyWindow, false),
    (0x3C, c.pBorder, false), (0x18, c.pTempSensor, false), (0x22, c.pLoadMode, false), (0x20, [], true),
    (0x4E, c.pRamxOrigin, false), (0x4F, c.pRamyOrigin, false)]

/-- The logical commands of a protocol request, as opcode and payload, in order (R159, R161, R163, R165, R167). -/
def protocolCommands (c : Cfg) : Instr → List (Byte × Payload)
  | .init => (initRows c).map fun r => (r.1, .bytes r.2.1)
  | .display b h => uploadCommands (.bytes (padB c b)) (.bytes (padH c h))
  | .displayFb => uploadCommands (.plane .black) (.plane .hl)
  | .clear => uploadCommands (.bytes (fill 0xFF c.planeSize)) (.bytes (fill 0x00 c.planeSize))
  | .sleep => [(0x10, .bytes [0x01])]
  | .status | .fbSet _ _ _ | .fbGet _ _ | .fbClear | .fbDraw _ | .chCmd _ _ | .chData _ | .wSwreset | .wAutowriteHl _
  | .wAutowriteBw _ | .wSoftstart _ | .wGate _ | .wDataEntry _ | .wRamxWindow _ | .wRamyWindow _ | .wBorder _ | .wTempSensor _
  | .wUpdateCtrl2 _ | .wMasterAct | .wWriteBw _ | .wWriteHl _ | .wRamxCounter _ | .wRamyCounter _ | .wDeepSleep => []
where
  /-- The five commands of an upload and its refresh (R161, R163). -/
  uploadCommands (srcB srcH : Payload) : List (Byte × Payload) :=
    [(0x4F, .bytes c.pRamyOrigin), (0x24, srcB), (0x26, srcH), (0x22, .bytes [c.pRefreshMode]), (0x20, .bytes [])]

/-- INIT of port `p` with no failure and every busy sample ready at once, before its response (R160). -/
def initEvents (c : Cfg) (f : FrameBuf) (p : Nat) : List Event :=
  pulseEvents p ++ (initRows c).flatMap fun r =>
    commandEvents c f p r.1 (.bytes r.2.1) ++ if r.2.2 then waitEvents c.busyReady 0 else []

/-- UPLOAD of port `p` with no failure (R161). -/
def uploadEvents (c : Cfg) (f : FrameBuf) (p : Nat) (srcB srcH : Payload) : List Event :=
  commandEvents c f p 0x4F (.bytes c.pRamyOrigin) ++ commandEvents c f p 0x24 srcB ++ commandEvents c f p 0x26 srcH

/-- REFRESH of port `p` with no failure whose first busy sample is ready (R163). -/
def refreshEvents (c : Cfg) (f : FrameBuf) (p : Nat) : List Event :=
  commandEvents c f p 0x22 (.bytes [c.pRefreshMode]) ++ commandEvents c f p 0x20 (.bytes []) ++ [.delay .act] ++
    waitEvents c.busyReady 0

/-- The bytes a stream of events puts on the bus, each with the level of DC it goes out under: the bytes the transport
accepted, `DC` starting at `dc` (R100). -/
def busBytes (dc : Level) : List Event → List (Level × Byte)
  | [] => []
  | .pin .dc lvl :: es => busBytes lvl es
  | .xfer _ bytes n _ :: es => (bytes.take n).map (fun b => (dc, b)) ++ busBytes dc es
  | _ :: es => busBytes dc es

/-- A SEND_COMMAND of port `p` whose opcode transfer accepts `m` bytes and fails (40_channel.md R124). -/
def opFailEvents (p : Nat) (op : Byte) (m : Nat) (ok : Bool) : List Event :=
  [.lock p .acq, .pin .cs false, .pin .dc false, .xfer p [op] m ok, .pin .cs true, .lock p .rel, .log p (.opcode op) m]

/-- The payload transfers of a source whose chunks before `k` succeed and whose chunk `k` accepts `m` bytes and fails
(R123). -/
def chunkFailEvents (c : Cfg) (f : FrameBuf) (p : Nat) (src : Payload) (k m : Nat) (ok : Bool) : List Event :=
  (chunkEvents c f p src).take k ++ [.xfer p (payloadChunk c f src k) m ok]

/-- A transport transfer. -/
def isXfer : Event → Bool
  | .xfer _ _ _ _ => true
  | _ => false

/-- A sample of the busy line. -/
def isBusy : Event → Bool
  | .busy _ => true
  | _ => false

/-- A lock event. -/
def isLock : Event → Bool
  | .lock _ _ => true
  | _ => false

/-- A pin event. -/
def isPin : Event → Bool
  | .pin _ _ => true
  | _ => false

/-- A delay. -/
def isDelay : Event → Bool
  | .delay _ => true
  | _ => false

/-! ## Reading the bus off the trace -/

/-- What a monitor of the trace knows: the port that holds the bus lock and the levels last driven. -/
structure Bus where
  owner : Option Nat
  pins  : Pins
deriving DecidableEq, Repr

/-- The monitor's next knowledge; none where the event breaks the bus discipline: the lock is taken when it is free and
released by its holder with CS at 1; a pin is driven, and a transfer of 1 to `limit` bytes made with CS at 0, only while
the lock is held, the transfer by its holder (20_memory.md R68, R72, R74; 40_channel.md R126, R127). -/
def busNext (limit : Nat) (b : Bus) : Event → Option Bus
  | .lock p .acq => if b.owner = none then some { b with owner := some p } else none
  | .lock p .rel => if b.owner = some p ∧ b.pins.cs = true then some { b with owner := none } else none
  | .pin p lvl => if b.owner = none then none else some { b with pins := b.pins.drive p lvl }
  | .xfer p bytes n _ =>
    if b.owner = some p ∧ b.pins.cs = false ∧ 1 ≤ bytes.length ∧ bytes.length ≤ limit ∧ n ≤ bytes.length then some b
    else none
  | .busy _ => some b
  | .delay _ => some b
  | .log _ _ _ => some b
  | .resp _ _ => some b

/-- The monitor after a trace, from block reset. -/
def busAfter (limit : Nat) : List Event → Option Bus :=
  List.foldl (fun o e => o.bind (busNext limit · e)) (some { owner := none, pins := { rst := true, cs := true, dc := true } })

/-- The trace keeps the bus discipline, and the lock and the pin registers are what it says they are (10_state.md R25,
R26). -/
def TraceInv (s : State) : Prop :=
  busAfter s.cfg.xferLimit s.trace = some { owner := s.busOwner, pins := s.pins }

/-! ## Premises on the environment's draws (R10) -/

/-- The next `k` transfers succeed: each answers `ok` and accepts as many bytes as a transfer can have. -/
def goodXfers (s : State) (k : Nat) : Prop :=
  k ≤ s.env.xferIn.length ∧ ∀ r ∈ s.env.xferIn.take k, r.2 = true ∧ s.cfg.xferLimit ≤ r.1

/-- The next `k` busy samples read ready. -/
def readySamples (s : State) (k : Nat) : Prop :=
  k ≤ s.env.busyIn.length ∧ ∀ b ∈ s.env.busyIn.take k, b = s.cfg.busyReady

/-- The environment after `x` transfers and `b` busy samples it had fixed. -/
def Env.spent (e : Env) (x b : Nat) : Env := { e with xferIn := e.xferIn.drop x, busyIn := e.busyIn.drop b }

/-- The running port is one of the block's ports. -/
def State.curOk (s : State) : Prop := s.cur < s.ports.length

/-- The ports with the running one's sequencer replaced. -/
def State.portsWithSeq (s : State) (q : Seq) : List Port := s.ports.set s.cur { s.port with seq := q }

/-! ## The invariant of locks, ownership and sequencers -/

/-- The delays of the reset pulse. -/
def DelayName.inPulse : DelayName → Bool
  | .rstH1 | .rstL | .rstH2 => true
  | _ => false

/-- The micro-step is taken with the bus lock held (00_scope.md R15; 40_channel.md R126; 41_protocol.md R154). -/
def Micro.inBus : Micro → Bool
  | .release | .releaseCmd | .pin _ _ | .xferOp _ _ | .xferChunk _ _ _ => true
  | .delay d => d.inPulse
  | _ => false

/-- The level of CS when the micro-step is taken with the bus lock held (40_channel.md R127). -/
def Micro.csBefore : Micro → Level
  | .pin .cs true | .pin .dc _ | .xferOp _ _ | .xferChunk _ _ _ => false
  | _ => true

/-- Port `p` and the two locks: an idle or stopped port holds none. A port with a request in progress stands at one of its
micro-steps, holds the bus lock exactly at those inside a logical command or the reset pulse (40_channel.md R126), with CS
as the command has driven it (R127), and holds the FSM exactly between ENTRY and EXIT of a protocol request (20_memory.md
R75); one that was not allowed has left DSTATE at rest (41_protocol.md R152). -/
def portInv (s : State) (p : Nat) : Prop :=
  let q := (s.portAt p).seq
  match q.op with
  | .idle => s.busOwner ≠ some p ∧ s.fsmOwner ≠ some p
  | .stopped => s.busOwner ≠ some p ∧ s.fsmOwner ≠ some p
  | .busy i => ∃ m, stepAt s.cfg i q.pc = some m ∧
      (s.busOwner = some p ↔ m.inBus = true) ∧
      (m.inBus = true → s.pins.cs = m.csBefore) ∧
      (s.fsmOwner = some p ↔ (isProtocol i = true ∧ 0 < q.pc)) ∧
      (isProtocol i = true → q.pc = 0 → q.sq = false) ∧
      (isProtocol i = true → q.sq = true → s.dstate.resting = true)

/-- The invariant. -/
structure Inv (s : State) : Prop where
  /-- the configuration is legal (00_scope.md R6) -/
  cfgLegal : s.cfg.legal = true
  /-- one record per port (R7) -/
  portCount : s.ports.length = s.cfg.nPorts
  /-- the role palette is constant (10_state.md R36) -/
  palette : s.roleRgb = rolePalette s.cfg
  /-- an owner is a port (R26) -/
  busInRange : ∀ p, s.busOwner = some p → p < s.ports.length
  /-- an owner is a port (R27) -/
  fsmInRange : ∀ p, s.fsmOwner = some p → p < s.ports.length
  /-- between logical commands CS is 1 (40_channel.md R127) -/
  csHigh : s.busOwner = none → s.pins.cs = true
  /-- with the FSM free, DSTATE is at rest (10_state.md R23) -/
  resting : s.fsmOwner = none → s.dstate.resting = true
  /-- each port agrees with the locks -/
  port : ∀ p, p < s.ports.length → portInv s p

/-! ## The invariant of DSTATE -/

/-- The values DSTATE takes while an allowed protocol request stands at `pc` after its ENTRY: those of 41_protocol.md R151,
with UPLOADING up to the first step of REFRESH and REFRESHING after it. -/
def dstateAt (c : Cfg) (i : Instr) (pc : Nat) (d : DState) : Prop :=
  if i = .init then d = .configuring
  else if i = .sleep then d = .idle ∨ d = .asleep
  else if Micro.startRefresh ∈ (stepList c i).drop pc then d = .uploading
  else d = .refreshing

/-- DSTATE is what R151 says of every allowed protocol request in progress. -/
def DstateInv (s : State) : Prop :=
  ∀ p i, p < s.ports.length → (s.portAt p).seq.op = .busy i → isProtocol i = true → 0 < (s.portAt p).seq.pc →
    (s.portAt p).seq.sq = false → dstateAt s.cfg i (s.portAt p).seq.pc s.dstate

/-- The changes of DSTATE that R151's table allows. -/
def dstateMove : DState → DState → Bool
  | .uninitialized, .configuring => true
  | .idle, .configuring => true
  | .asleep, .configuring => true
  | .configuring, .idle => true
  | .idle, .uploading => true
  | .uploading, .refreshing => true
  | .refreshing, .idle => true
  | .idle, .asleep => true
  | .asleep, .asleep => true
  | _, _ => false

/-! ## Framebuffer races -/

/-- A micro-step of the running port that overlaps another access: the start of a draw and the opening of an upload window
(20_memory.md R76). -/
def microRaces (s : State) : Option Micro → Bool
  | some (.drawStart _) => decide (s.fb.drawOwner ≠ none ∨ s.fb.uploadOwner ≠ none)
  | some .openWindow => decide (s.fb.drawOwner ≠ none)
  | _ => false

/-- This step of instruction `i` by the running port overlaps another access (R76). -/
def racesAt (s : State) (i : Instr) : Bool :=
  match i with
  | .fbSet x y _ => decide (x.toNat < s.cfg.width ∧ y.toNat < s.cfg.height) &&
      decide (s.fb.drawOwner ≠ none ∨ (s.fb.uploadOwner ≠ none ∧ s.fb.uploadOwner ≠ some s.cur))
  | .fbClear => decide (s.fb.drawOwner ≠ none ∨ (s.fb.uploadOwner ≠ none ∧ s.fb.uploadOwner ≠ some s.cur))
  | .fbGet x y => decide (x.toNat < s.cfg.width ∧ y.toNat < s.cfg.height) &&
      decide (s.fb.drawOwner ≠ none ∧ s.fb.drawOwner ≠ some s.cur)
  | i => microRaces s (stepAt s.cfg i s.seq.pc)

/-! ## The invariant of the planes -/

/-- Each plane is in canonical form and lists no address outside it; no pixel, pad bits included, is the pair (0,1); the
pad bits are the pair (1,0) (10_state.md R24, R43). -/
structure PlaneInv (s : State) : Prop where
  blackWf : Memory.wf (planeFill .black) s.fb.black = true
  hlWf : Memory.wf (planeFill .hl) s.fb.hl = true
  blackBelow : Memory.below s.cfg.planeSize s.fb.black = true
  hlBelow : Memory.below s.cfg.planeSize s.fb.hl = true
  noInvalid : ∀ a, s.fb.readByte .hl a &&& ~~~(s.fb.readByte .black a) = 0
  pads : ∀ x y, y < s.cfg.height → s.cfg.width ≤ x → x < 8 * s.cfg.bpr → s.fb.pixelPair s.cfg x y = (true, false)

end Sys2Proof.Machine
end

