-- ==== Sys2Proof/Certificates/Slice0/Obligations.lean ====
section
/-! DEFINITION. The statements for the provers. Each docstring says which rule of spec/ it formalises. Where a statement ends a
request with `Seq.idle`, R14 and R21 give its `op`; its other fields are the model's (log 6), and no rule is cited for them. -/

open Sys2Proof Sys2Proof.Machine

/-! ## Encoding (30_encoding.md) -/

/-- Words written out bit by bit from R91, R94, R96 and R101, one or more for each family, decode to what they stand for. The
table's words carry no operand blocks: that CH_CMD, CH_DATA and 0x24 are read here with empty payloads is the model's choice
(log 12). -/
def Obligations.DecodesSpecWords : Prop :=
  decodeTableWord 32 0b0001_00_00_000000000000_000000000000 = some .init ∧
  decodeTableWord 32 0b0110_00_00_000000000000_000000000000 = some .status ∧
  decodeTableWord 32 0b1000_00_10_000000000111_000000000000 = some (.fbSet 7 0 .highlight) ∧
  decodeTableWord 32 0b1000_00_10_001101101111_001000001111 = some (.fbSet 879 527 .highlight) ∧
  decodeTableWord 32 0b1001_00_00_000000000111_000000000000 = some (.fbGet 7 0) ∧
  decodeTableWord 32 0b1100_00000000000000000000_00010010 = some (.chCmd 0x12 []) ∧
  decodeTableWord 32 0b1101_00_00_000000000000_000000000000 = some (.chData []) ∧
  decodeTableWord 32 0b1000_00_11_000000000000_000000000000 = none ∧
  decodeTableWord 8 0b00010010 = some .wSwreset ∧
  decodeTableWord 8 0b00100100 = some (.wWriteBw (.bytes [])) ∧
  decodeTableWord 8 0b00010000 = some .wDeepSleep ∧
  Role.white.code.toNat = 0 ∧ Role.black.code.toNat = 1 ∧ Role.highlight.code.toNat = 2

/-- Decode and encode agree: decoding the encoding of a well-formed instruction gives it back, for every instruction and every
operand, and an accepted code is the only code of its instruction, which is well-formed (R90 to R101; R99: "decodes to
exactly one of"). -/
def Obligations.DecodeAndEncodeAgree : Prop :=
  (∀ i : Instr, i.wf = true → decode (encode i) = .ok i) ∧
  ∀ (c : Code) (i : Instr), decode c = .ok i → encode i = c ∧ i.wf = true

/-- A request is illegal exactly when one of R95's five clauses holds. The fifth is R98's: the rectangle's bounds are out of
order, or `pix` does not give one palette index, or with no palette one colour, for each pixel of the rectangle; that `pix`
is two tables, the other one empty, is the model's form (log 10). -/
def Obligations.IllegalExactlyWhen : Prop :=
  ∀ (w : Word) (bl : List Block),
    (∃ e, decode (.request w bl) = .error e) ↔
      (opNumber w = 0x0 ∨ opNumber w = 0x7 ∨ opNumber w = 0xE ∨ opNumber w = 0xF) ∨
      requiredZero w ≠ 0 ∨
      (opNumber w = 0x8 ∧ w.toNat / 2 ^ 24 % 4 = 3) ∨
      bl.map blockKind ≠ requiredBlocks (opNumber w) ∨
      (∃ src, Block.src src ∈ bl ∧
        (src.x1 < src.x0 ∨ src.y1 < src.y0 ∨
          (src.pal ≠ [] ∧ (src.idx.length ≠ (src.x1 - src.x0) * (src.y1 - src.y0) ∨ src.rgb ≠ [])) ∨
          (src.pal = [] ∧ (src.rgb.length ≠ (src.x1 - src.x0) * (src.y1 - src.y0) ∨ src.idx ≠ []))))

/-- The fields of FB_SET, FB_GET and CH_CMD are the bits R91 gives them, unsigned (R96, R97). -/
def Obligations.FieldsAreTheWordsBits : Prop :=
  ∀ (w : Word) (bl : List Block),
    (∀ x y role, decode (.request w bl) = .ok (.fbSet x y role) →
      x.toNat = w.toNat / 2 ^ 12 % 2 ^ 12 ∧ y.toNat = w.toNat % 2 ^ 12 ∧ role.code.toNat = w.toNat / 2 ^ 24 % 4) ∧
    (∀ x y, decode (.request w bl) = .ok (.fbGet x y) →
      x.toNat = w.toNat / 2 ^ 12 % 2 ^ 12 ∧ y.toNat = w.toNat % 2 ^ 12) ∧
    (∀ op s, decode (.request w bl) = .ok (.chCmd op s) → op.toNat = w.toNat % 2 ^ 8 ∧ bl = [.payload s])

/-- The bytes a SEND_COMMAND puts on the bus, each under the level of DC it goes out with, are the wire command of R100: the
opcode under DC 0, then the payload under DC 1, every byte once and in ascending order (20_memory.md R65, 40_channel.md
R121, R124). A receiver that tells a command's end by the DC line alone reads back the opcode, the payload and the rest
of the stream. -/
def Obligations.CommandBytesAreWireFrame : Prop :=
  (∀ (c : Cfg) (f : FrameBuf) (p : Nat) (op : Byte) (src : Payload) (dc : Level), c.legal = true →
    busBytes dc (commandEvents c f p op src) = wireFrame op (payloadAll c f src)) ∧
  ∀ (op : Byte) (payload : List Byte) (rest : List (Level × Byte)),
    (rest = [] ∨ ∃ b more, rest = (false, b) :: more) →
      parseFrame (wireFrame op payload ++ rest) = some (op, payload, rest)

/-! ## Construction, reset and the step -/

/-- Construction yields no instance exactly for a configuration outside the bounds of 00_scope.md R6 (60_exceptions.md
R262). -/
def Obligations.IllegalConfigGivesNoInstance : Prop :=
  ∀ c : Cfg, State.construct c = none ↔
    ¬(1 ≤ c.width ∧ c.width ≤ 4096 ∧ 1 ≤ c.height ∧ c.height ≤ 4096 ∧ 1 ≤ c.xferLimit ∧ 1 ≤ c.nPorts ∧
      10000 ≤ c.tSettle ∧ c.tSettle ≤ 200000 ∧ 200 ≤ c.tAct)

/-- Block reset sets every piece of state to its reset value, silently, and takes the configuration as given
(70_reset_and_hazards.md R290, R293). It says nothing of BIND, to which R37 gives no value. `State.reset` is such an
instance. -/
def Obligations.ResetValues : Prop :=
  (∀ (c : Cfg) (s : State), State.construct c = some s →
    s.cfg = c ∧ s.ports.length = c.nPorts ∧ (∀ p, p < c.nPorts → (s.portAt p).seq.op = .idle) ∧
    s.dstate = .uninitialized ∧
    (∀ a, a < c.planeSize → s.fb.readByte .black a = 0xFF ∧ s.fb.readByte .hl a = 0x00) ∧
    s.pins.rst = true ∧ s.pins.cs = true ∧ s.pins.dc = true ∧ s.busOwner = none ∧ s.fsmOwner = none ∧
    s.err.xferErr = false ∧ s.err.cnt = 0 ∧ s.err.lastOp = 0x000 ∧ s.err.lastSent = 0 ∧
    s.seqErr = false ∧ s.fb.race = false ∧ s.fb.drawOwner = none ∧ s.fb.uploadOwner = none ∧ s.fault = none ∧
    s.roleRgb = { i0 := { r := 255, g := 255, b := 255 }, i1 := { r := 0, g := 0, b := 0 }, i2 := c.accent } ∧
    s.trace = []) ∧
  State.construct Config.cfg = some State.reset

/-- A step runs the micro-step of the port that moves next: of the request in progress, or of the request an idle port
accepts, which starts at `pc` 0 with both flags 0 (10_state.md R21, 30_encoding.md R92; `sent` and `ok` are the model's,
log 6). An idle port with no request and a port stopped by a fault change nothing but `cur`; nor does a choice that names
no port (logs 1, 7). -/
def Obligations.StepRunsDecodedInstruction : Prop :=
  ∀ (s v : State) (p : Nat), s.drawPort = (p, v) →
    v = { s with env := v.env } ∧
    (s.ports.length ≤ p → step s = .next v) ∧
    (p < s.ports.length →
      (∀ i, (s.portAt p).seq.op = .busy i → step s = exec i { v with cur := p }) ∧
      (∀ r rest i, (s.portAt p).seq.op = .idle → (s.portAt p).inbox = r :: rest →
        decode (.request r.word r.blocks) = .ok i →
        step s = exec i
          { v with
            cur := p,
            ports := s.ports.set p
              { seq := { op := .busy i, pc := 0, xf := false, sq := false, sent := 0, ok := true },
                bind := (s.portAt p).bind, inbox := rest } }) ∧
      ((s.portAt p).seq.op = .idle → (s.portAt p).inbox = [] → step s = .next { v with cur := p }) ∧
      ((s.portAt p).seq.op = .stopped → step s = .next { v with cur := p }))

/-- An illegal request is answered in one step with `resp(ILLEGAL, 0, 0, empty)`, and nothing else happens
(60_exceptions.md R263). -/
def Obligations.IllegalRequestOnlyResponds : Prop :=
  ∀ (s v : State) (p : Nat) (r : Request) (rest : List Request) (e : DecodeError),
    s.drawPort = (p, v) → p < s.ports.length → (s.portAt p).seq.op = .idle → (s.portAt p).inbox = r :: rest →
    decode (.request r.word r.blocks) = .error e →
    ∃ q : Seq, q.op = .idle ∧
      step s = .next
        { v with
          cur := p,
          ports := s.ports.set p { seq := q, bind := (s.portAt p).bind, inbox := rest },
          trace := s.trace ++ [.resp p { code := .illegal, xf := false, sq := false, data := .empty }] }

/-! ## Invariants -/

/-- The invariants hold at reset, for every legal configuration and for `State.reset`. -/
def Obligations.InvariantsHoldAtReset : Prop :=
  (∀ c : Cfg, c.legal = true →
    Inv (State.ofCfg c) ∧ PlaneInv (State.ofCfg c) ∧ TraceInv (State.ofCfg c) ∧ DstateInv (State.ofCfg c)) ∧
  Inv State.reset ∧ PlaneInv State.reset ∧ TraceInv State.reset ∧ DstateInv State.reset

/-- Every step keeps the invariant of locks, ownership and sequencers: the bus lock is held exactly inside a logical command
or the reset pulse, CS is 1 between logical commands, the FSM is owned exactly from ENTRY to EXIT, and DSTATE is at
rest while it is free (10_state.md R23, 20_memory.md R74, R75, 40_channel.md R126, R127, 41_protocol.md R152, R153). -/
def Obligations.StepKeepsInv : Prop :=
  ∀ s t : State, Inv s → step s = .next t → Inv t

/-- From every state of the invariant a step answers a next state: no step ends in a fault or a refusal. -/
def Obligations.StepAnswersUnderInv : Prop :=
  ∀ s : State, Inv s → ∃ t, step s = .next t

/-- Every step keeps the plane invariant: canonical memories within the planes, no pixel with the pair (0,1), pad bits at (1,0)
(10_state.md R24, R43). -/
def Obligations.StepKeepsPlaneInv : Prop :=
  ∀ s t : State, PlaneInv s → step s = .next t → PlaneInv t

/-- Every step keeps the bus discipline of the trace: the bus lock is taken when it is free and released by its holder, with CS at
1; a pin is driven only while it is held; a transfer is its holder's, with CS at 0, of 1 to XFER_LIMIT bytes; and the lock and
pin registers are what the trace says (10_state.md R25, R26, 20_memory.md R68, R72, R74, 40_channel.md R126). So no Lock, Pin or
Xfer event of another port's logical command lies inside one. It does not speak of Busy, Delay, Log and Resp events, which
other ports may emit there, nor of how often CS is driven in a command (O23, O24). -/
def Obligations.StepKeepsBusDiscipline : Prop :=
  ∀ s t : State, Inv s → TraceInv s → step s = .next t → TraceInv t

/-- Every step keeps DSTATE at the value 41_protocol.md R151 gives each allowed request in progress, changes it only as
R151's table allows, and only when the moving port owns the FSM or takes it at that step (10_state.md R22, R23). -/
def Obligations.DstateFollowsTable : Prop :=
  ∀ s t : State, Inv s → DstateInv s → step s = .next t →
    DstateInv t ∧
    (t.dstate ≠ s.dstate → dstateMove s.dstate t.dstate = true ∧
      (s.fsmOwner = some t.cur ∨ (s.fsmOwner = none ∧ t.fsmOwner = some t.cur)))

/-- No step changes the configuration, the role palette or the number of ports (70_reset_and_hazards.md R291,
10_state.md R36). -/
def Obligations.ConfigurationIsConstant : Prop :=
  ∀ s t : State, step s = .next t → t.cfg = s.cfg ∧ t.roleRgb = s.roleRgb ∧ t.ports.length = s.ports.length

/-- No step clears a sticky flag or lets the error count fall (10_state.md R28, R29, R32, R33, R35; 60_exceptions.md R268,
R273). -/
def Obligations.StickyFlagsStay : Prop :=
  ∀ s t : State, step s = .next t →
    (s.err.xferErr = true → t.err.xferErr = true) ∧ s.err.cnt.toNat ≤ t.err.cnt.toNat ∧
    (s.seqErr = true → t.seqErr = true) ∧ (s.fb.race = true → t.fb.race = true) ∧
    (∀ r, s.fault = some r → t.fault = some r)

/-- A step leaves every other port's sequencer, binding and unsent requests as they are, and adds at most one event to the
trace and takes none away (00_scope.md R9, R15, 60_exceptions.md R278). -/
def Obligations.StepIsOnePortsStep : Prop :=
  ∀ s t : State, step s = .next t →
    (∀ p, p ≠ t.cur → t.portAt p = s.portAt p) ∧ (t.trace = s.trace ∨ ∃ e, t.trace = s.trace ++ [e])

/-- SEQ_ERR is set only by the ENTRY step of a protocol request from a DSTATE it is not allowed from (60_exceptions.md R269,
41_protocol.md R152). -/
def Obligations.SeqErrOnlyAtEntry : Prop :=
  ∀ (i : Instr) (s t : State), exec i s = .next t → s.seqErr = false → t.seqErr = true →
    ∃ k, stepAt s.cfg i s.seq.pc = some (.entry k) ∧ allowedFrom k s.dstate = false

/-- A response with a code other than OK has both flags 0 (60_exceptions.md R270). -/
def Obligations.RefusalsHaveNoFlags : Prop :=
  ∀ (s t : State) (p : Nat) (r : Response), step s = .next t → t.trace = s.trace ++ [.resp p r] → r.code ≠ .ok →
    r.xf = false ∧ r.sq = false

/-! ## Chunks (40_channel.md section 1) -/

/-- The chunk split of R121: every chunk but the last has XFER_LIMIT bytes, the last between 1 and XFER_LIMIT, they cover the
payload once and in order, and DATA_BODY sends them in ascending order. -/
def Obligations.ChunksCoverPayload : Prop :=
  ∀ (c : Cfg) (f : FrameBuf) (src : Payload), 1 ≤ c.xferLimit →
    let n := payloadLen c src
    let m := nchunks c n
    m = (n + c.xferLimit - 1) / c.xferLimit ∧
    (∀ k, k + 1 < m → (payloadChunk c f src k).length = c.xferLimit) ∧
    (∀ k, k + 1 = m → (payloadChunk c f src k).length = n - (m - 1) * c.xferLimit ∧
      1 ≤ (payloadChunk c f src k).length ∧ (payloadChunk c f src k).length ≤ c.xferLimit) ∧
    (List.range m).flatMap (payloadChunk c f src) = payloadAll c f src ∧
    (payloadAll c f src).length = n ∧
    (dataBody c src).length = m ∧
    ∀ k, k < m → ∃ skip, (dataBody c src)[k]? = some (.xferChunk src k skip)

/-- The chunk-count law of R122: a payload of `2 * L + 1` bytes takes 3 transfers, one of `n >= 1` bytes `ceil(n / L)`, an empty one
none, and a SEND_COMMAND one more for its opcode. -/
def Obligations.ChunkCountLaw : Prop :=
  ∀ c : Cfg, 1 ≤ c.xferLimit →
    nchunks c (2 * c.xferLimit + 1) = 3 ∧ nchunks c 0 = 0 ∧
    (∀ n, 1 ≤ n → (nchunks c n - 1) * c.xferLimit < n ∧ n ≤ nchunks c n * c.xferLimit) ∧
    ∀ (f : FrameBuf) (p : Nat) (op : Byte) (src : Payload),
      (dataEvents c f p src).countP isXfer = nchunks c (payloadLen c src) ∧
      (commandEvents c f p op src).countP isXfer = nchunks c (payloadLen c src) + 1

/-! ## SEND_COMMAND and SEND_DATA, line by line (40_channel.md R123, R124, R128) -/

/-- The lines of SEND_COMMAND wherever a step list holds one, from `pc` `b` on: at the start of a wire command or CH_CMD, and at
the places of a protocol request, whose list holds every command its rule names. Each line answers the next state R123, R124
and R265 give it, from every state in which it can be taken, a transfer's outcome being the next one of `env.xferIn` (with none
there, O60); a port whose `Acquire` finds the lock taken is held. A failure leaves out the rest of this command and no line
after it. The model's own in it: `Acquire` starts `sent` and `ok` at 0 and 1 (log 6), a wire command stands alone (log 9), and
where `pc` goes past lines left out (log 22). -/
def Obligations.SendCommandLines : Prop :=
  (∀ (c : Cfg) (i : Instr) (op : Byte) (src : Payload), (op, src) ∈ protocolCommands c i →
    ∃ b, sendCommand c op src <+: (stepList c i).drop b) ∧
  ∀ (i : Instr) (b : Nat) (op : Byte) (src : Payload) (s : State),
    ((b = 0 ∧ (wireCommand i = some (op, src) ∨ ∃ payload, i = .chCmd op payload ∧ src = .bytes payload)) ∨
      sendCommand s.cfg op src <+: (stepList s.cfg i).drop b) →
    let n := nchunks s.cfg (payloadLen s.cfg src)
    let q := s.seq
    (q.pc = b → s.busOwner = none → exec i s = .next
      { s with
        busOwner := some s.cur, trace := s.trace ++ [.lock s.cur .acq],
        ports := s.portsWithSeq { q with pc := b + 1, sent := 0, ok := true } }) ∧
    (∀ o, q.pc = b → s.busOwner = some o → exec i s = .next s) ∧
    (q.pc = b + 1 → exec i s = .next
      { s with
        pins := { s.pins with cs := false }, trace := s.trace ++ [.pin .cs false],
        ports := s.portsWithSeq { q with pc := b + 2 } }) ∧
    (q.pc = b + 2 → exec i s = .next
      { s with
        pins := { s.pins with dc := false }, trace := s.trace ++ [.pin .dc false],
        ports := s.portsWithSeq { q with pc := b + 3 } }) ∧
    (∀ m ok more, q.pc = b + 3 → s.env.xferIn = (m, ok) :: more → exec i s = .next
      { s with
        env := { s.env with xferIn := more },
        trace := s.trace ++ [.xfer s.cur [op] (min m 1) ok],
        ports := s.portsWithSeq
          { q with
            pc := if ok = true ∧ 1 ≤ m then b + 4 else b + 5 + n, sent := min m 1, ok := decide (ok = true ∧ 1 ≤ m) } }) ∧
    (q.pc = b + 4 → exec i s = .next
      { s with
        pins := { s.pins with dc := true }, trace := s.trace ++ [.pin .dc true],
        ports := s.portsWithSeq { q with pc := b + 5 } }) ∧
    (∀ k m ok more, k < n → q.pc = b + 5 + k → s.env.xferIn = (m, ok) :: more →
      let bytes := payloadChunk s.cfg s.fb src k
      exec i s = .next
        { s with
          env := { s.env with xferIn := more },
          trace := s.trace ++ [.xfer s.cur bytes (min m bytes.length) ok],
          ports := s.portsWithSeq
            { q with
              pc := if ok = true ∧ bytes.length ≤ m then b + 6 + k else b + 5 + n, sent := q.sent + min m bytes.length,
              ok := decide (ok = true ∧ bytes.length ≤ m) } }) ∧
    (q.pc = b + 5 + n → exec i s = .next
      { s with
        pins := { s.pins with cs := true }, trace := s.trace ++ [.pin .cs true],
        ports := s.portsWithSeq { q with pc := b + 6 + n } }) ∧
    (q.pc = b + 6 + n → s.busOwner = some s.cur → exec i s = .next
      { s with
        busOwner := none, trace := s.trace ++ [.lock s.cur .rel],
        ports := s.portsWithSeq { q with pc := if q.ok then b + 8 + n else b + 7 + n } }) ∧
    (q.pc = b + 7 + n → exec i s = .next
      { s with
        err :=
          { xferErr := true, cnt := if s.err.cnt = 0xFFFFFFFF then 0xFFFFFFFF else s.err.cnt + 1,
            lastOp := op.zeroExtend 9, lastSent := BitVec.ofNat 32 q.sent },
        trace := s.trace ++ [.log s.cur (.opcode op) q.sent],
        ports := s.portsWithSeq { q with pc := b + 8 + n, xf := true } })

/-- The lines of CH_DATA, which is SEND_DATA and a response (R123, R128, R130, R265), a transfer's outcome being the next one of
`env.xferIn` (with none there, O60). The model's own in it: `Acquire` starts `sent` and `ok` at 0 and 1 (log 6), and where `pc`
goes past lines left out (log 22). -/
def Obligations.SendDataLines : Prop :=
  ∀ (payload : List Byte) (s : State),
    let src := Payload.bytes payload
    let i := Instr.chData payload
    let n := nchunks s.cfg payload.length
    let q := s.seq
    (q.pc = 0 → s.busOwner = none → exec i s = .next
      { s with
        busOwner := some s.cur, trace := s.trace ++ [.lock s.cur .acq],
        ports := s.portsWithSeq { q with pc := 1, sent := 0, ok := true } }) ∧
    (∀ o, q.pc = 0 → s.busOwner = some o → exec i s = .next s) ∧
    (q.pc = 1 → exec i s = .next
      { s with
        pins := { s.pins with cs := false }, trace := s.trace ++ [.pin .cs false],
        ports := s.portsWithSeq { q with pc := 2 } }) ∧
    (q.pc = 2 → exec i s = .next
      { s with
        pins := { s.pins with dc := true }, trace := s.trace ++ [.pin .dc true],
        ports := s.portsWithSeq { q with pc := 3 } }) ∧
    (∀ k m ok more, k < n → q.pc = 3 + k → s.env.xferIn = (m, ok) :: more →
      let bytes := payloadChunk s.cfg s.fb src k
      exec i s = .next
        { s with
          env := { s.env with xferIn := more },
          trace := s.trace ++ [.xfer s.cur bytes (min m bytes.length) ok],
          ports := s.portsWithSeq
            { q with
              pc := if ok = true ∧ bytes.length ≤ m then 4 + k else 3 + n, sent := q.sent + min m bytes.length,
              ok := decide (ok = true ∧ bytes.length ≤ m) } }) ∧
    (q.pc = 3 + n → exec i s = .next
      { s with
        pins := { s.pins with cs := true }, trace := s.trace ++ [.pin .cs true],
        ports := s.portsWithSeq { q with pc := 4 + n } }) ∧
    (q.pc = 4 + n → s.busOwner = some s.cur → exec i s = .next
      { s with
        busOwner := none, trace := s.trace ++ [.lock s.cur .rel],
        ports := s.portsWithSeq { q with pc := if q.ok then 6 + n else 5 + n } }) ∧
    (q.pc = 5 + n → exec i s = .next
      { s with
        err :=
          { xferErr := true, cnt := if s.err.cnt = 0xFFFFFFFF then 0xFFFFFFFF else s.err.cnt + 1, lastOp := 0x100,
            lastSent := BitVec.ofNat 32 q.sent },
        trace := s.trace ++ [.log s.cur .data q.sent],
        ports := s.portsWithSeq { q with pc := 6 + n, xf := true } })

/-- The last lines: CH_CMD and CH_DATA answer `resp(OK, not ok, 0, sent)` (R129, R130), with the count as it is wherever it
fits 32 bits (the model's clause: beyond that the count is free, log 17); a wire command alone in a sequencer ends there (the
model's own, log 9). -/
def Obligations.ChannelLastLines : Prop :=
  ∀ s : State,
    (∃ w : Word, (s.seq.sent < 2 ^ 32 → w.toNat = s.seq.sent) ∧
      let answered : State :=
        { s with
          ports := s.portsWithSeq Seq.idle,
          trace := s.trace ++ [.resp s.cur { code := .ok, xf := !s.seq.ok, sq := false, data := .sent w }] }
      (∀ op payload, s.seq.pc = 8 + nchunks s.cfg payload.length → exec (.chCmd op payload) s = .next answered) ∧
      ∀ payload, s.seq.pc = 6 + nchunks s.cfg payload.length → exec (.chData payload) s = .next answered) ∧
    (∀ i op src, wireCommand i = some (op, src) → s.seq.pc = 8 + nchunks s.cfg (payloadLen s.cfg src) →
      exec i s = .next { s with ports := s.portsWithSeq Seq.idle })

/-! ## Whole runs of the channel -/

/-- Every wire command whose transfers succeed runs to its end with the events of R124, its opcode and payload as 41_protocol.md
section 4 gives them, and changes nothing else but CS and DC, both left at 1. That it stands alone in a sequencer and ends there
idle, with no response, is the model's (log 9). -/
def Obligations.WireCommandCompletes : Prop :=
  ∀ (i : Instr) (op : Byte) (src : Payload) (s : State), wireCommand i = some (op, src) → s.cfg.legal = true → s.curOk →
    s.seq.pc = 0 → s.busOwner = none →
    let es := commandEvents s.cfg s.fb s.cur op src
    goodXfers s (es.countP isXfer) →
    ∃ k, execN i k s = .next
      { s with
        ports := s.portsWithSeq Seq.idle, pins := { s.pins with cs := true, dc := true }, trace := s.trace ++ es,
        env := s.env.spent (es.countP isXfer) 0 }

/-- CH_CMD and CH_DATA whose transfers succeed run to their response, whose count takes in the opcode byte, wherever it fits
32 bits (R125, R129, R130; beyond that it is free, log 17). -/
def Obligations.ChannelRequestsComplete : Prop :=
  ∀ (payload : List Byte) (s : State), s.cfg.legal = true → s.curOk → s.seq.pc = 0 → s.busOwner = none →
    (∀ op,
      let es := commandEvents s.cfg s.fb s.cur op (.bytes payload)
      goodXfers s (es.countP isXfer) →
      ∃ (k : Nat) (w : Word), (1 + payload.length < 2 ^ 32 → w.toNat = 1 + payload.length) ∧
        execN (.chCmd op payload) k s = .next
          { s with
            ports := s.portsWithSeq Seq.idle, pins := { s.pins with cs := true, dc := true },
            trace := s.trace ++ es ++ [.resp s.cur { code := .ok, xf := false, sq := false, data := .sent w }],
            env := s.env.spent (es.countP isXfer) 0 }) ∧
    (let es := dataEvents s.cfg s.fb s.cur (.bytes payload)
     goodXfers s (es.countP isXfer) →
      ∃ (k : Nat) (w : Word), (payload.length < 2 ^ 32 → w.toNat = payload.length) ∧
        execN (.chData payload) k s = .next
          { s with
            ports := s.portsWithSeq Seq.idle, pins := { s.pins with cs := true, dc := true },
            trace := s.trace ++ es ++ [.resp s.cur { code := .ok, xf := false, sq := false, data := .sent w }],
            env := s.env.spent (es.countP isXfer) 0 })

/-- A CH_CMD whose opcode transfer fails sends no payload, leaves DC at 0, logs the failure and answers OK with `xf`
(R124, 60_exceptions.md R265). -/
def Obligations.OpcodeFailureRun : Prop :=
  ∀ (op : Byte) (payload : List Byte) (s : State) (m : Nat) (ok : Bool) (more : List (Nat × Bool)), s.curOk →
    s.seq.pc = 0 → s.busOwner = none → s.env.xferIn = (m, ok) :: more → ¬(ok = true ∧ 1 ≤ m) →
    ∃ k, execN (.chCmd op payload) k s = .next
      { s with
        ports := s.portsWithSeq Seq.idle, pins := { s.pins with cs := true, dc := false },
        err :=
          { xferErr := true, cnt := if s.err.cnt = 0xFFFFFFFF then 0xFFFFFFFF else s.err.cnt + 1,
            lastOp := op.zeroExtend 9, lastSent := BitVec.ofNat 32 (min m 1) },
        trace := s.trace ++ opFailEvents s.cur op (min m 1) ok ++
          [.resp s.cur { code := .ok, xf := true, sq := false, data := .sent (BitVec.ofNat 32 (min m 1)) }],
        env := { s.env with xferIn := more } }

/-- A CH_CMD or CH_DATA whose chunk `k` fails sends no later chunk and reports every byte the transport accepted, the failed chunk's
included, in its response wherever the count fits 32 bits (R123, R125, R128; beyond that it is free, log 17). -/
def Obligations.ChunkFailureRun : Prop :=
  ∀ (payload : List Byte) (s : State) (k m : Nat) (ok : Bool) (more : List (Nat × Bool)), s.cfg.legal = true → s.curOk →
    s.seq.pc = 0 → s.busOwner = none → k < nchunks s.cfg payload.length →
    let src := Payload.bytes payload
    let len := (payloadChunk s.cfg s.fb src k).length
    let fail := chunkFailEvents s.cfg s.fb s.cur src k (min m len) ok
    ¬(ok = true ∧ len ≤ m) →
    (∀ op sent, sent = 1 + k * s.cfg.xferLimit + min m len → goodXfers s (1 + k) →
      s.env.xferIn.drop (1 + k) = (m, ok) :: more →
      ∃ (j : Nat) (w : Word), (sent < 2 ^ 32 → w.toNat = sent) ∧ execN (.chCmd op payload) j s = .next
        { s with
          ports := s.portsWithSeq Seq.idle, pins := { s.pins with cs := true, dc := true },
          err :=
            { xferErr := true, cnt := if s.err.cnt = 0xFFFFFFFF then 0xFFFFFFFF else s.err.cnt + 1,
              lastOp := op.zeroExtend 9, lastSent := BitVec.ofNat 32 sent },
          trace := s.trace ++
            [.lock s.cur .acq, .pin .cs false, .pin .dc false, .xfer s.cur [op] 1 true, .pin .dc true] ++ fail ++
            [.pin .cs true, .lock s.cur .rel, .log s.cur (.opcode op) sent,
              .resp s.cur { code := .ok, xf := true, sq := false, data := .sent w }],
          env := { s.env with xferIn := more } }) ∧
    (∀ sent, sent = k * s.cfg.xferLimit + min m len → goodXfers s k → s.env.xferIn.drop k = (m, ok) :: more →
      ∃ (j : Nat) (w : Word), (sent < 2 ^ 32 → w.toNat = sent) ∧ execN (.chData payload) j s = .next
        { s with
          ports := s.portsWithSeq Seq.idle, pins := { s.pins with cs := true, dc := true },
          err :=
            { xferErr := true, cnt := if s.err.cnt = 0xFFFFFFFF then 0xFFFFFFFF else s.err.cnt + 1, lastOp := 0x100,
              lastSent := BitVec.ofNat 32 sent },
          trace := s.trace ++ [.lock s.cur .acq, .pin .cs false, .pin .dc true] ++ fail ++
            [.pin .cs true, .lock s.cur .rel, .log s.cur .data sent,
              .resp s.cur { code := .ok, xf := true, sq := false, data := .sent w }],
          env := { s.env with xferIn := more } })

/-- A transfer, wherever an instruction has one, goes to the next line when it succeeds; when it fails it skips only the rest of
its own logical command: it goes on at `PinWrite(CS, 1)`, then `Release(BUS)` and LOG_XFER, and what it leaves out is
`PinWrite(DC, 1)` and every chunk of the command's payload after an opcode, and the later chunks of the same payload after a
chunk (30_encoding.md R104, 40_channel.md R123, R124, R128, 41_protocol.md R169; that the skip is a jump of `pc` is log 22). -/
def Obligations.FailureSkipsOwnCommandOnly : Prop :=
  ∀ (i : Instr) (s : State), s.curOk →
    let c := s.cfg
    let pc := s.seq.pc
    let goesOn (skip : Nat) : Prop :=
      (∃ t, exec i s = .next t ∧ t.seq.op = s.seq.op ∧
        t.seq.pc = if t.seq.ok then pc + 1 else pc + 1 + skip) ∧
      stepAt c i (pc + 1 + skip) = some (.pin .cs true) ∧ stepAt c i (pc + 2 + skip) = some .releaseCmd ∧
      ∃ what, stepAt c i (pc + 3 + skip) = some (.logXfer what)
    (∀ op skip, stepAt c i pc = some (.xferOp op skip) →
      goesOn skip ∧ stepAt c i (pc + 1) = some (.pin .dc true) ∧
      ∃ src, skip = 1 + nchunks c (payloadLen c src) ∧
        ∀ k, k < nchunks c (payloadLen c src) → ∃ rest, stepAt c i (pc + 2 + k) = some (.xferChunk src k rest)) ∧
    ∀ src k skip, stepAt c i pc = some (.xferChunk src k skip) →
      goesOn skip ∧ k + 1 + skip = nchunks c (payloadLen c src) ∧
      ∀ j, j < skip → ∃ rest, stepAt c i (pc + 1 + j) = some (.xferChunk src (k + 1 + j) rest)

/-- The error registers change only at a LOG_XFER step, which records the failure once (60_exceptions.md R265, R274). -/
def Obligations.ErrorRegistersOnlyByLog : Prop :=
  ∀ (i : Instr) (s t : State), exec i s = .next t → t.err ≠ s.err →
    ∃ what, stepAt s.cfg i s.seq.pc = some (.logXfer what) ∧
      t.trace = s.trace ++ [.log s.cur what s.seq.sent] ∧
      t.err =
        { xferErr := true, cnt := if s.err.cnt = 0xFFFFFFFF then 0xFFFFFFFF else s.err.cnt + 1,
          lastOp := match what with
            | .opcode op => op.zeroExtend 9
            | .data => 0x100,
          lastSent := BitVec.ofNat 32 s.seq.sent }

/-! ## The protocol (41_protocol.md) -/

/-- The ENTRY and EXIT steps of the five protocol requests (R151, R152, R153), and the hold of a request whose ENTRY
finds the FSM owned. A DISPLAY too long never reaches its ENTRY. -/
def Obligations.EntryAndExitLines : Prop :=
  ∀ (i : Instr) (k : Proto) (s : State),
    ((i = .init ∧ k = .init) ∨ (∃ b h, i = .display b h ∧ k = .display ∧ b.length ≤ s.cfg.planeSize ∧
      h.length ≤ s.cfg.planeSize) ∨ (i = .displayFb ∧ k = .display) ∨ (i = .clear ∧ k = .display) ∨
      (i = .sleep ∧ k = .sleep)) →
    let q := s.seq
    let allowed := match k with
      | .init => True
      | .display => s.dstate = .idle
      | .sleep => s.dstate = .idle ∨ s.dstate = .asleep
    let entered := match k with
      | .init => DState.configuring
      | .display => DState.uploading
      | .sleep => s.dstate
    let ended := match k with
      | .init => DState.idle
      | .display => DState.idle
      | .sleep => DState.asleep
    (q.pc = 0 → s.fsmOwner = none → allowed → exec i s = .next
      { s with fsmOwner := some s.cur, dstate := entered, ports := s.portsWithSeq { q with pc := 1 } }) ∧
    (q.pc = 0 → s.fsmOwner = none → ¬allowed → exec i s = .next
      { s with fsmOwner := some s.cur, seqErr := true, ports := s.portsWithSeq { q with pc := 1, sq := true } }) ∧
    (∀ o, q.pc = 0 → s.fsmOwner = some o → exec i s = .next s) ∧
    (q.pc + 1 = (stepList s.cfg i).length → s.fsmOwner = some s.cur → exec i s = .next
      { s with
        fsmOwner := none, dstate := if q.sq then s.dstate else ended, ports := s.portsWithSeq Seq.idle,
        trace := s.trace ++ [.resp s.cur { code := .ok, xf := q.xf, sq := q.sq, data := .empty }] })

/-- The reset pulse: only INIT drives RST, and its pulse drives it high, low and high with the three holds inside one lock
acquisition, and changes nothing else (R154, 70_reset_and_hazards.md R295). -/
def Obligations.ResetPulseRun : Prop :=
  (∀ s : State, s.curOk → s.seq.pc = 1 → s.busOwner = none →
    ∃ q : Seq, q.pc = 9 ∧ q.op = s.seq.op ∧ q.xf = s.seq.xf ∧ q.sq = s.seq.sq ∧
      execN .init 8 s = .next
        { s with
          pins := { s.pins with rst := true }, ports := s.portsWithSeq q,
          trace := s.trace ++
            [.lock s.cur .acq, .pin .rst true, .delay .rstH1, .pin .rst false, .delay .rstL, .pin .rst true,
              .delay .rstH2, .lock s.cur .rel] }) ∧
  ∀ (c : Cfg) (i : Instr) (pc : Nat) (lvl : Level), stepAt c i pc = some (.pin .rst lvl) → i = .init

/-- BUSY_WAIT, wherever an instruction has one: it returns after the first ready sample, with a poll delay after each sample
before it and the settle delay at its end; and as long as no sample reads ready it stays where it is, holding no lock it did
not hold (R155 to R158). -/
def Obligations.BusyWaitRun : Prop :=
  ∀ (i : Instr) (s : State) (j : Nat) (more : List Level), s.curOk → stepAt s.cfg i s.seq.pc = some .sampleBusy →
    s.env.busyIn = List.replicate j (!s.cfg.busyReady) ++ more →
    execN i (2 * j) s = .next
      { s with
        env := { s.env with busyIn := more },
        trace := s.trace ++ (List.replicate j [Event.busy !s.cfg.busyReady, .delay .poll]).flatten } ∧
    (∀ rest, more = s.cfg.busyReady :: rest → execN i (2 * j + 2) s = .next
      { s with
        env := { s.env with busyIn := rest },
        ports := s.portsWithSeq { s.seq with pc := s.seq.pc + 3 },
        trace := s.trace ++ (List.replicate j [Event.busy !s.cfg.busyReady, .delay .poll]).flatten ++
          [.busy s.cfg.busyReady, .delay .settle] })

/-- INIT with no failure and every busy sample ready runs the reset pulse and the fourteen commands of R159 with their waits, and
ends IDLE from every DSTATE (R160). -/
def Obligations.InitCompletes : Prop :=
  ∀ s : State, s.cfg.legal = true → s.curOk → s.seq.pc = 0 → s.seq.xf = false → s.seq.sq = false → s.busOwner = none →
    s.fsmOwner = none →
    let es := initEvents s.cfg s.fb s.cur
    goodXfers s (es.countP isXfer) → readySamples s (es.countP isBusy) →
    ∃ k, execN .init k s = .next
      { s with
        ports := s.portsWithSeq Seq.idle, dstate := .idle, pins := { rst := true, cs := true, dc := true },
        trace := s.trace ++ es ++ [.resp s.cur { code := .ok, xf := false, sq := false, data := .empty }],
        env := s.env.spent (es.countP isXfer) (es.countP isBusy) }

/-- The counts of an INIT with no failure (95_test_vectors.md section 3.4). -/
def Obligations.InitEventCounts : Prop :=
  ∀ (c : Cfg) (f : FrameBuf) (p : Nat),
    let es := initEvents c f p
    es.countP isLock = 30 ∧ es.countP isPin = 59 ∧ es.countP isBusy = 4 ∧ es.countP isDelay = 7 ∧
    es.countP isXfer = 14 + (nchunks c c.pAutowriteHl.length + nchunks c c.pAutowriteBw.length +
      nchunks c c.pSoftstart.length + nchunks c c.pGate.length + nchunks c c.pDataEntry.length +
      nchunks c c.pRamxWindow.length + nchunks c c.pRamyWindow.length + nchunks c c.pBorder.length +
      nchunks c c.pTempSensor.length + nchunks c c.pLoadMode.length + nchunks c c.pRamxOrigin.length +
      nchunks c c.pRamyOrigin.length)

/-- DISPLAY with buffers no longer than a plane, with no failure: from IDLE it ends IDLE; from any other DSTATE it is out of
sequence, runs the same stream and leaves DSTATE (R152, R161, R162, R163, R164). -/
def Obligations.DisplayCompletes : Prop :=
  ∀ (b h : List Byte) (s : State), s.cfg.legal = true → s.curOk → b.length ≤ s.cfg.planeSize →
    h.length ≤ s.cfg.planeSize → s.seq.pc = 0 → s.seq.xf = false → s.seq.sq = false → s.busOwner = none →
    s.fsmOwner = none →
    let es := uploadEvents s.cfg s.fb s.cur
        (.bytes (b ++ List.replicate (s.cfg.planeSize - b.length) 0xFF))
        (.bytes (h ++ List.replicate (s.cfg.planeSize - h.length) 0x00)) ++
      refreshEvents s.cfg s.fb s.cur
    goodXfers s (es.countP isXfer) → readySamples s (es.countP isBusy) →
    ∃ k, execN (.display b h) k s = .next
      { s with
        ports := s.portsWithSeq Seq.idle, seqErr := s.seqErr || decide (s.dstate ≠ .idle),
        pins := { s.pins with cs := true, dc := true },
        trace := s.trace ++ es ++
          [.resp s.cur { code := .ok, xf := false, sq := decide (s.dstate ≠ .idle), data := .empty }],
        env := s.env.spent (es.countP isXfer) (es.countP isBusy) }

/-- A DISPLAY with a longer buffer is refused with LEN in one step, at any lock state, and nothing else happens
(60_exceptions.md R264). -/
def Obligations.DisplayTooLongRefused : Prop :=
  ∀ (b h : List Byte) (s : State), s.seq.pc = 0 → (s.cfg.planeSize < b.length ∨ s.cfg.planeSize < h.length) →
    ∃ q : Seq, q.op = .idle ∧ exec (.display b h) s = .next
      { s with
        ports := s.portsWithSeq q,
        trace := s.trace ++ [.resp s.cur { code := .len, xf := false, sq := false, data := .empty }] }

/-- CLEAR does at every step what DISPLAY with two empty buffers does, never the LEN refusal, and with no failure sends a
0x24 payload of 0xFF bytes and a 0x26 payload of 0x00 bytes and leaves the planes (R166). -/
def Obligations.ClearCompletes : Prop :=
  (∀ s : State, exec .clear s = exec (.display [] []) s) ∧
  ∀ s : State, s.cfg.legal = true → s.curOk → s.seq.pc = 0 → s.seq.xf = false → s.seq.sq = false → s.busOwner = none →
    s.fsmOwner = none →
    let es := uploadEvents s.cfg s.fb s.cur (.bytes (List.replicate s.cfg.planeSize 0xFF))
        (.bytes (List.replicate s.cfg.planeSize 0x00)) ++ refreshEvents s.cfg s.fb s.cur
    goodXfers s (es.countP isXfer) → readySamples s (es.countP isBusy) →
    ∃ k, execN .clear k s = .next
      { s with
        ports := s.portsWithSeq Seq.idle, seqErr := s.seqErr || decide (s.dstate ≠ .idle),
        pins := { s.pins with cs := true, dc := true },
        trace := s.trace ++ es ++
          [.resp s.cur { code := .ok, xf := false, sq := decide (s.dstate ≠ .idle), data := .empty }],
        env := s.env.spent (es.countP isXfer) (es.countP isBusy) }

/-- DISPLAY_FB: after its 0x4F command the OPEN_WINDOW step flags a draw in progress and sets FB_UPLOAD_OWNER to the running port;
after its 0x26 command the CLOSE_WINDOW step clears it; and with no failure the whole request sends the planes' own bytes and
ends with the window closed (R165, 10_state.md R34, 20_memory.md R76). -/
def Obligations.DisplayFbCompletes : Prop :=
  ∀ s : State,
    (let opening := 9 + nchunks s.cfg s.cfg.pRamyOrigin.length
     let closing := opening + 17 + 2 * nchunks s.cfg s.cfg.planeSize
     (s.seq.pc = opening → exec .displayFb s = .next
        { s with
          fb := { s.fb with race := s.fb.race || decide (s.fb.drawOwner ≠ none), uploadOwner := some s.cur },
          ports := s.portsWithSeq { s.seq with pc := opening + 1 } }) ∧
      (s.seq.pc = closing → exec .displayFb s = .next
        { s with
          fb := { s.fb with uploadOwner := none }, ports := s.portsWithSeq { s.seq with pc := closing + 1 } })) ∧
    (s.cfg.legal = true → s.curOk → s.seq.pc = 0 → s.seq.xf = false → s.seq.sq = false → s.busOwner = none →
      s.fsmOwner = none →
      let es := uploadEvents s.cfg s.fb s.cur (.bytes ((List.range s.cfg.planeSize).map (s.fb.readByte .black)))
          (.bytes ((List.range s.cfg.planeSize).map (s.fb.readByte .hl))) ++ refreshEvents s.cfg s.fb s.cur
      goodXfers s (es.countP isXfer) → readySamples s (es.countP isBusy) →
      ∃ k, execN .displayFb k s = .next
        { s with
          ports := s.portsWithSeq Seq.idle, seqErr := s.seqErr || decide (s.dstate ≠ .idle),
          fb := { s.fb with race := s.fb.race || decide (s.fb.drawOwner ≠ none), uploadOwner := none },
          pins := { s.pins with cs := true, dc := true },
          trace := s.trace ++ es ++
            [.resp s.cur { code := .ok, xf := false, sq := decide (s.dstate ≠ .idle), data := .empty }],
          env := s.env.spent (es.countP isXfer) (es.countP isBusy) })

/-- A DISPLAY whose 0x24 command fails, in its opcode transfer or in any chunk `j` of its payload, sends no later byte of that
command and logs it, goes on with the 0x26 command and the refresh to the end, and answers OK with `xf`; from IDLE it ends IDLE,
from any other DSTATE it is out of sequence and leaves DSTATE (R152, R164, R169). For every other command, and for INIT, CLEAR,
DISPLAY_FB and SLEEP, the lines after a failure are those of O23, O30 and O32. -/
def Obligations.DisplayGoesOnAfterFailedWrite : Prop :=
  ∀ (b h : List Byte) (s : State) (m : Nat) (ok : Bool) (more : List (Nat × Bool)), s.cfg.legal = true → s.curOk →
    b.length ≤ s.cfg.planeSize → h.length ≤ s.cfg.planeSize → s.seq.pc = 0 → s.seq.xf = false → s.seq.sq = false →
    s.busOwner = none → s.fsmOwner = none →
    let srcB := Payload.bytes (b ++ List.replicate (s.cfg.planeSize - b.length) 0xFF)
    let first := commandEvents s.cfg s.fb s.cur 0x4F (.bytes s.cfg.pRamyOrigin)
    let last := commandEvents s.cfg s.fb s.cur 0x26
        (.bytes (h ++ List.replicate (s.cfg.planeSize - h.length) 0x00)) ++ refreshEvents s.cfg s.fb s.cur
    let answered (sent : Nat) (failed : List Event) : State :=
      { s with
        ports := s.portsWithSeq Seq.idle, seqErr := s.seqErr || decide (s.dstate ≠ .idle),
        pins := { s.pins with cs := true, dc := true },
        err :=
          { xferErr := true, cnt := if s.err.cnt = 0xFFFFFFFF then 0xFFFFFFFF else s.err.cnt + 1, lastOp := 0x024,
            lastSent := BitVec.ofNat 32 sent },
        trace := s.trace ++ first ++ failed ++ last ++
          [.resp s.cur { code := .ok, xf := true, sq := decide (s.dstate ≠ .idle), data := .empty }],
        env :=
          { s.env with xferIn := more.drop (last.countP isXfer), busyIn := s.env.busyIn.drop (last.countP isBusy) } }
    goodXfers { s with env := { s.env with xferIn := more } } (last.countP isXfer) → readySamples s (last.countP isBusy) →
    (goodXfers s (first.countP isXfer) → s.env.xferIn.drop (first.countP isXfer) = (m, ok) :: more →
      ¬(ok = true ∧ 1 ≤ m) →
      ∃ k, execN (.display b h) k s = .next (answered (min m 1) (opFailEvents s.cur 0x24 (min m 1) ok))) ∧
    ∀ j, j < nchunks s.cfg s.cfg.planeSize →
      let len := (payloadChunk s.cfg s.fb srcB j).length
      let sent := 1 + j * s.cfg.xferLimit + min m len
      goodXfers s (first.countP isXfer + (1 + j)) → s.env.xferIn.drop (first.countP isXfer + (1 + j)) = (m, ok) :: more →
      ¬(ok = true ∧ len ≤ m) →
      ∃ k, execN (.display b h) k s = .next (answered sent
        ([.lock s.cur .acq, .pin .cs false, .pin .dc false, .xfer s.cur [0x24] 1 true, .pin .dc true] ++
          chunkFailEvents s.cfg s.fb s.cur srcB j (min m len) ok ++
          [.pin .cs true, .lock s.cur .rel, .log s.cur (.opcode 0x24) sent]))

/-- SLEEP sends 0x10 with payload 0x01 and no busy-wait; allowed from IDLE and ASLEEP it ends ASLEEP, also when its opcode transfer
fails; from any other DSTATE it is out of sequence and leaves DSTATE (R152, R167, R169, 60_exceptions.md R269). -/
def Obligations.SleepCompletes : Prop :=
  ∀ s : State, s.cfg.legal = true → s.curOk → s.seq.pc = 0 → s.seq.xf = false → s.seq.sq = false → s.busOwner = none →
    s.fsmOwner = none →
    let allowed := s.dstate = .idle ∨ s.dstate = .asleep
    (let es := commandEvents s.cfg s.fb s.cur 0x10 (.bytes [0x01])
     goodXfers s (es.countP isXfer) →
      ∃ k, execN .sleep k s = .next
        { s with
          ports := s.portsWithSeq Seq.idle, seqErr := s.seqErr || decide (¬allowed),
          dstate := if allowed then .asleep else s.dstate, pins := { s.pins with cs := true, dc := true },
          trace := s.trace ++ es ++
            [.resp s.cur { code := .ok, xf := false, sq := decide (¬allowed), data := .empty }],
          env := s.env.spent (es.countP isXfer) 0 }) ∧
    (∀ m ok more, s.env.xferIn = (m, ok) :: more → ¬(ok = true ∧ 1 ≤ m) →
      ∃ k, execN .sleep k s = .next
        { s with
          ports := s.portsWithSeq Seq.idle, seqErr := s.seqErr || decide (¬allowed),
          dstate := if allowed then .asleep else s.dstate, pins := { s.pins with cs := true, dc := false },
          err :=
            { xferErr := true, cnt := if s.err.cnt = 0xFFFFFFFF then 0xFFFFFFFF else s.err.cnt + 1, lastOp := 0x010,
              lastSent := BitVec.ofNat 32 (min m 1) },
          trace := s.trace ++ opFailEvents s.cur 0x10 (min m 1) ok ++
            [.resp s.cur { code := .ok, xf := true, sq := decide (¬allowed), data := .empty }],
          env := { s.env with xferIn := more } })

/-- STATUS answers in one step with the record of 10_state.md R40, bit by bit, and changes nothing (R168). -/
def Obligations.StatusReportsRecord : Prop :=
  ∀ s : State, ∃ (w0 : Word) (q : Seq), q.op = .idle ∧
    exec .status s = .next
      { s with
        ports := s.portsWithSeq q,
        trace := s.trace ++
          [.resp s.cur { code := .ok, xf := false, sq := false, data := .status w0 s.err.cnt s.err.lastSent }] } ∧
    w0.toNat =
      (match s.dstate with
        | .uninitialized => 0
        | .configuring => 1
        | .idle => 2
        | .uploading => 3
        | .refreshing => 4
        | .asleep => 5) +
      s.err.xferErr.toNat * 2 ^ 3 + s.seqErr.toNat * 2 ^ 4 + s.fb.race.toNat * 2 ^ 5 +
      s.busOwner.isSome.toNat * 2 ^ 6 + s.fsmOwner.isSome.toNat * 2 ^ 7 + s.err.lastOp.toNat * 2 ^ 8

/-! ## The framebuffer (43_framebuffer.md) -/

/-- Every in-bounds pixel's byte lies in the planes (20_memory.md R62). -/
def Obligations.PixelIndexInPlane : Prop :=
  ∀ (c : Cfg) (x y : Nat), x < c.width → y < c.height → pixelIndex c x y ≤ c.planeSize - 1 ∧ 1 ≤ c.planeSize

/-- FB_SET answers OK in one step. In bounds it writes the role's pair into the one bit of each plane that 20_memory.md R61
gives the pixel, keeps every other bit of both planes, and sets FB_RACE as R76 says; out of bounds it is a no-op (R230,
R231). -/
def Obligations.FbSetWritesPixel : Prop :=
  ∀ (x y : BitVec 12) (role : Role) (s : State),
    Memory.wf (planeFill .black) s.fb.black = true → Memory.wf (planeFill .hl) s.fb.hl = true →
    let c := s.cfg
    let a := x.toNat / 8 + y.toNat * ((c.width + 7) / 8)
    let m : Byte := (0x80 : Byte) >>> (x.toNat % 8)
    let write (v : Byte) (b : Bool) : Byte := if b then v ||| m else v &&& ~~~m
    let answered (f : FrameBuf) : State :=
      { s with
        fb := f, ports := s.portsWithSeq Seq.idle,
        trace := s.trace ++ [.resp s.cur { code := .ok, xf := false, sq := false, data := .empty }] }
    (x.toNat < c.width ∧ y.toNat < c.height →
      ∃ f : FrameBuf, exec (.fbSet x y role) s = .next (answered f) ∧
        (∀ k, f.readByte .black k =
          if k = a then write (s.fb.readByte .black a) (decide (role ≠ .black)) else s.fb.readByte .black k) ∧
        (∀ k, f.readByte .hl k =
          if k = a then write (s.fb.readByte .hl a) (decide (role = .highlight)) else s.fb.readByte .hl k) ∧
        f.race = (s.fb.race ||
          decide (s.fb.drawOwner ≠ none ∨ (s.fb.uploadOwner ≠ none ∧ s.fb.uploadOwner ≠ some s.cur))) ∧
        f.drawOwner = s.fb.drawOwner ∧ f.uploadOwner = s.fb.uploadOwner) ∧
    (¬(x.toNat < c.width ∧ y.toNat < c.height) → exec (.fbSet x y role) s = .next (answered s.fb))

/-- FB_GET in bounds answers the role its pixel's pair stands for and sets FB_RACE as R76 says; it raises INVALID_PIXEL on
the pair (0,1); out of bounds it answers OOB with some role code and changes nothing but the model's draw counter (R232,
60_exceptions.md R266, R267). -/
def Obligations.FbGetReadsPixel : Prop :=
  ∀ (x y : BitVec 12) (s : State),
    let c := s.cfg
    let a := x.toNat / 8 + y.toNat * ((c.width + 7) / 8)
    let m : Byte := (0x80 : Byte) >>> (x.toNat % 8)
    let b := decide (s.fb.readByte .black a &&& m ≠ 0)
    let h := decide (s.fb.readByte .hl a &&& m ≠ 0)
    let f : FrameBuf :=
      { s.fb with race := s.fb.race || decide (s.fb.drawOwner ≠ none ∧ s.fb.drawOwner ≠ some s.cur) }
    let answered (e : Env) (f : FrameBuf) (code : RespCode) (d : RespData) : State :=
      { s with
        fb := f, ports := s.portsWithSeq Seq.idle, env := e,
        trace := s.trace ++ [.resp s.cur { code := code, xf := false, sq := false, data := d }] }
    (x.toNat < c.width ∧ y.toNat < c.height →
      (b = true → h = false → exec (.fbGet x y) s = .next (answered s.env f .ok (.role .white))) ∧
      (b = false → h = false → exec (.fbGet x y) s = .next (answered s.env f .ok (.role .black))) ∧
      (b = true → h = true → exec (.fbGet x y) s = .next (answered s.env f .ok (.role .highlight))) ∧
      (b = false → h = true → exec (.fbGet x y) s = .next
        { s with
          fb := f, fault := if s.fault = none then some .invalidPixel else s.fault,
          ports := s.portsWithSeq { s.seq with op := .stopped } })) ∧
    (¬(x.toNat < c.width ∧ y.toNat < c.height) →
      ∃ d : Role, exec (.fbGet x y) s = .next
        (answered { s.env with draws := s.env.draws + 1 } s.fb .oob (.role d)))

/-- The round-trip law (R233): FB_SET then FB_GET of the same in-bounds pixel answers the role set; every other pixel keeps
its pair; and an out-of-bounds FB_SET changes no byte of either plane. -/
def Obligations.SetGetRoundTrip : Prop :=
  ∀ (x y : BitVec 12) (role : Role) (s t : State),
    Memory.wf (planeFill .black) s.fb.black = true → Memory.wf (planeFill .hl) s.fb.hl = true →
    exec (.fbSet x y role) s = .next t →
    (x.toNat < s.cfg.width ∧ y.toNat < s.cfg.height →
      (∀ u : State, u.cfg = s.cfg → (∀ p k, u.fb.readByte p k = t.fb.readByte p k) →
        ∃ v, exec (.fbGet x y) u = .next v ∧
          v.trace = u.trace ++ [.resp u.cur { code := .ok, xf := false, sq := false, data := .role role }]) ∧
      (∀ x' y', x' < s.cfg.width → y' < s.cfg.height → (x', y') ≠ (x.toNat, y.toNat) →
        t.fb.pixelPair s.cfg x' y' = s.fb.pixelPair s.cfg x' y')) ∧
    (¬(x.toNat < s.cfg.width ∧ y.toNat < s.cfg.height) → ∀ p k, t.fb.readByte p k = s.fb.readByte p k)

/-- FB_CLEAR fills both planes in one step and sets FB_RACE as R76 says; a second one leaves the planes as the first (R234,
R235). -/
def Obligations.FbClearFillsPlanes : Prop :=
  ∀ s : State, ∃ (f : FrameBuf) (q : Seq), q.op = .idle ∧
    exec .fbClear s = .next
      { s with
        fb := f, ports := s.portsWithSeq q,
        trace := s.trace ++ [.resp s.cur { code := .ok, xf := false, sq := false, data := .empty }] } ∧
    (∀ k, f.readByte .black k = 0xFF ∧ f.readByte .hl k = 0x00) ∧
    f.race = (s.fb.race ||
      decide (s.fb.drawOwner ≠ none ∨ (s.fb.uploadOwner ≠ none ∧ s.fb.uploadOwner ≠ some s.cur))) ∧
    f.drawOwner = s.fb.drawOwner ∧ f.uploadOwner = s.fb.uploadOwner ∧
    ∀ u v : State, u.fb = f → exec .fbClear u = .next v → v.fb.black = f.black ∧ v.fb.hl = f.hl

/-- FB_DRAW's start, pixel and end steps (R236): the start takes the ownership, flags an overlap and binds the roles on the
exact path; each pixel step writes one pixel, in row-major order; the end answers. -/
def Obligations.FbDrawLines : Prop :=
  ∀ (src : Source) (s : State),
    (s.seq.pc = 0 → exec (.fbDraw src) s = .next
      { s with
        fb :=
          { s.fb with
            race := s.fb.race || decide (s.fb.drawOwner ≠ none ∨ s.fb.uploadOwner ≠ none), drawOwner := some s.cur },
        ports := s.ports.set s.cur
          { s.port with
            seq := { s.seq with pc := 1 },
            bind := if src.pal.length = 3 then bindRoles s.roleRgb src.pal s.port.bind else s.port.bind } }) ∧
    (∀ x y role, x < s.cfg.width → y < s.cfg.height → s.seq.pc = y * s.cfg.width + x + 1 →
      encodePixel s.roleRgb s.port.bind src x y = some role → exec (.fbDraw src) s = .next
        { s with
          fb := s.fb.writePixel s.cfg x y role, ports := s.portsWithSeq { s.seq with pc := s.seq.pc + 1 } }) ∧
    (s.seq.pc = s.cfg.width * s.cfg.height + 1 → exec (.fbDraw src) s = .next
      { s with
        fb := { s.fb with drawOwner := none }, ports := s.portsWithSeq Seq.idle,
        trace := s.trace ++ [.resp s.cur { code := .ok, xf := false, sq := false, data := .empty }] })

/-- A draw step whose source index names no colour raises SRC_INDEX: FAULT takes the reason if it is none, the port stops
with no response, and everything else stays, its draw ownership included (42_palette.md R216, 60_exceptions.md R267). -/
def Obligations.DrawFaultsOnReservedIndex : Prop :=
  ∀ (src : Source) (s : State) (x y n : Nat), x < s.cfg.width → y < s.cfg.height →
    s.seq.pc = y * s.cfg.width + x + 1 → src.x0 ≤ x → x < src.x1 → src.y0 ≤ y → y < src.y1 →
    src.pal ≠ [] → pixIndex src x y = some n → src.pal.length ≤ n →
    exec (.fbDraw src) s = .next
      { s with
        fault := if s.fault = none then some .srcIndex else s.fault,
        ports := s.portsWithSeq { s.seq with op := .stopped } }

/-- A whole FB_DRAW of a well-formed source whose indices all name colours: it answers OK, every in-bounds pixel has the pair of
the role ENCODE gives it, every pad bit and every byte outside the planes is as before, and nothing else changes but FB_RACE
and the port's binding (R236). -/
def Obligations.FbDrawCompletes : Prop :=
  ∀ (src : Source) (s : State), s.curOk → s.seq.pc = 0 → src.wf = true →
    Memory.wf (planeFill .black) s.fb.black = true → Memory.wf (planeFill .hl) s.fb.hl = true →
    (∀ x y n, x < s.cfg.width → y < s.cfg.height → sourceContains src x y = true → pixIndex src x y = some n →
      n < src.pal.length) →
    let bind := if src.pal.length = 3 then bindRoles s.roleRgb src.pal s.port.bind else s.port.bind
    ∃ (k : Nat) (f : FrameBuf),
      execN (.fbDraw src) k s = .next
        { s with
          fb := f, ports := s.ports.set s.cur { s.port with seq := Seq.idle, bind := bind },
          trace := s.trace ++ [.resp s.cur { code := .ok, xf := false, sq := false, data := .empty }] } ∧
      f.drawOwner = none ∧ f.uploadOwner = s.fb.uploadOwner ∧
      f.race = (s.fb.race || decide (s.fb.drawOwner ≠ none ∨ s.fb.uploadOwner ≠ none)) ∧
      (∀ x y, x < s.cfg.width → y < s.cfg.height →
        ∃ role, encodePixel s.roleRgb bind src x y = some role ∧ f.pixelPair s.cfg x y = rolePair role) ∧
      (∀ x y, s.cfg.width ≤ x → x < 8 * s.cfg.bpr → y < s.cfg.height →
        f.pixelPair s.cfg x y = s.fb.pixelPair s.cfg x y) ∧
      (∀ p a, s.cfg.planeSize ≤ a → f.readByte p a = s.fb.readByte p a)

/-- Draw overwrites (R237): two draws of one source from states that differ only in the framebuffer's contents, run alone to
their end, leave the same pair at every in-bounds pixel. -/
def Obligations.DrawOverwrites : Prop :=
  ∀ (src : Source) (s t t' : State) (f : FrameBuf), s.curOk → s.seq.pc = 0 →
    Memory.wf (planeFill .black) s.fb.black = true → Memory.wf (planeFill .hl) s.fb.hl = true →
    Memory.wf (planeFill .black) f.black = true → Memory.wf (planeFill .hl) f.hl = true →
    execN (.fbDraw src) (s.cfg.width * s.cfg.height + 2) s = .next t →
    execN (.fbDraw src) (s.cfg.width * s.cfg.height + 2) { s with fb := f } = .next t' → t.seq.op = .idle →
    ∀ x y, x < s.cfg.width → y < s.cfg.height → t.fb.pixelPair s.cfg x y = t'.fb.pixelPair s.cfg x y

/-- FB_RACE is set at exactly the steps of 20_memory.md R76, where an FB_SET or FB_GET out of bounds is none of them: it makes no
race check (R231, R232). -/
def Obligations.RaceFlagRule : Prop :=
  ∀ (i : Instr) (s t : State), exec i s = .next t → t.fb.race = (s.fb.race || racesAt s i)

/-! ## The palette (42_palette.md) -/

/-- The distance is the sum of the squared differences and at most 195075 (R210); `nearest` is the position with the smallest
distance, the lowest on a tie (R211). -/
def Obligations.NearestIsLowestMinimum : Prop :=
  (∀ p q : RGB,
    (colourDist p q : Int) = ((p.r.toNat : Int) - q.r.toNat) ^ 2 + ((p.g.toNat : Int) - q.g.toNat) ^ 2 +
      ((p.b.toNat : Int) - q.b.toNat) ^ 2 ∧
    colourDist p q ≤ 195075) ∧
  ∀ (c : RGB) (l : List RGB), l ≠ [] →
    ∃ q, l[nearest c l]? = some q ∧
      ∀ i r, l[i]? = some r → colourDist c q ≤ colourDist c r ∧ (i < nearest c l → colourDist c q < colourDist c r)

/-- Role binding (R212): White claims the position nearest to it, Black the nearest of the two left, Highlight the last; ties go
to the lower position, and the binding is a permutation of the roles whatever it was before. -/
def Obligations.BindRolesClaimsNearest : Prop :=
  ∀ (rgb : Three RGB) (e0 e1 e2 : RGB) (b : Three Role),
    ∃ jw jb jh : Nat, List.Perm [jw, jb, jh] [0, 1, 2] ∧
      (bindRoles rgb [e0, e1, e2] b).get? jw = some .white ∧
      (bindRoles rgb [e0, e1, e2] b).get? jb = some .black ∧
      (bindRoles rgb [e0, e1, e2] b).get? jh = some .highlight ∧
      (∀ qw qb qh, [e0, e1, e2][jw]? = some qw → [e0, e1, e2][jb]? = some qb → [e0, e1, e2][jh]? = some qh →
        (if jw < jb then colourDist rgb.i0 qw ≤ colourDist rgb.i0 qb else colourDist rgb.i0 qw < colourDist rgb.i0 qb) ∧
        (if jw < jh then colourDist rgb.i0 qw ≤ colourDist rgb.i0 qh else colourDist rgb.i0 qw < colourDist rgb.i0 qh) ∧
        (if jb < jh then colourDist rgb.i1 qb ≤ colourDist rgb.i1 qh else colourDist rgb.i1 qb < colourDist rgb.i1 qh))

/-- ENCODE (R213 to R217): White outside the rectangle; on the exact path the role bound to the index; on the general path
the role nearest to the colour, ties to the lower code; a fault for an index that names no colour. -/
def Obligations.EncodeRule : Prop :=
  ∀ (rgb : Three RGB) (b : Three Role) (src : Source) (x y : Nat),
    (¬(src.x0 ≤ x ∧ x < src.x1 ∧ src.y0 ≤ y ∧ y < src.y1) → encodePixel rgb b src x y = some .white) ∧
    (src.x0 ≤ x → x < src.x1 → src.y0 ≤ y → y < src.y1 →
      (∀ n, src.pal.length = 3 → pixIndex src x y = some n →
        (n = 0 → encodePixel rgb b src x y = some b.i0) ∧ (n = 1 → encodePixel rgb b src x y = some b.i1) ∧
        (n = 2 → encodePixel rgb b src x y = some b.i2) ∧ (3 ≤ n → encodePixel rgb b src x y = none)) ∧
      (∀ n, src.pal.length ≠ 3 → src.pal ≠ [] → pixIndex src x y = some n →
        (∀ q, src.pal[n]? = some q → ∃ role, encodePixel rgb b src x y = some role ∧
          role.code.toNat = nearest q [rgb.i0, rgb.i1, rgb.i2]) ∧
        (src.pal.length ≤ n → encodePixel rgb b src x y = none)) ∧
      (∀ q, src.pal = [] → pixColour src x y = some q → ∃ role, encodePixel rgb b src x y = some role ∧
        role.code.toNat = nearest q [rgb.i0, rgb.i1, rgb.i2]))

/-! ## Frames: what an instruction leaves as it was, at every step that answers a next state -/

/-- CH_CMD, CH_DATA and the wire commands change no plane byte, no framebuffer register, no DSTATE, FSM owner, SEQ_ERR, FAULT, RST
pin, palette or configuration, and of the running port only its sequencer (R129, 41_protocol.md section 4). -/
def Obligations.ChannelFrame : Prop :=
  ∀ (i : Instr) (s t : State),
    ((wireCommand i).isSome = true ∨ (∃ op payload, i = .chCmd op payload) ∨ ∃ payload, i = .chData payload) →
    exec i s = .next t →
    (∀ p a, t.fb.readByte p a = s.fb.readByte p a) ∧ t.fb = s.fb ∧ t.dstate = s.dstate ∧ t.fsmOwner = s.fsmOwner ∧
    t.seqErr = s.seqErr ∧ t.fault = s.fault ∧ t.pins.rst = s.pins.rst ∧ t.roleRgb = s.roleRgb ∧ t.cfg = s.cfg ∧
    t.cur = s.cur ∧ t.env.sched = s.env.sched ∧ t.env.busyIn = s.env.busyIn ∧
    t.port.bind = s.port.bind ∧ t.port.inbox = s.port.inbox ∧ ∀ p, p ≠ s.cur → t.portAt p = s.portAt p

/-- The protocol requests change no plane byte, no FB_DRAW owner, FAULT, palette or configuration; only INIT drives RST; only
DISPLAY_FB touches FB_RACE and the upload owner; and of the running port only its sequencer changes (R160, R164 to
R167). -/
def Obligations.ProtocolFrame : Prop :=
  ∀ (i : Instr) (s t : State), isProtocol i = true → exec i s = .next t →
    (∀ p a, t.fb.readByte p a = s.fb.readByte p a) ∧ t.fb.drawOwner = s.fb.drawOwner ∧
    (i ≠ .displayFb → t.fb = s.fb) ∧ (i ≠ .init → t.pins.rst = s.pins.rst) ∧ t.fault = s.fault ∧
    t.roleRgb = s.roleRgb ∧ t.cfg = s.cfg ∧ t.cur = s.cur ∧ t.env.sched = s.env.sched ∧
    t.port.bind = s.port.bind ∧ t.port.inbox = s.port.inbox ∧ ∀ p, p ≠ s.cur → t.portAt p = s.portAt p

/-- The framebuffer requests and STATUS touch no pin, lock, DSTATE, error register, SEQ_ERR or configuration, make no bus event, and
write no plane byte but those of the pixel a FB_SET or draw step names and those FB_CLEAR fills (R231 to R236, intro of
43_framebuffer.md). -/
def Obligations.FramebufferFrame : Prop :=
  ∀ (i : Instr) (s t : State),
    (i = .status ∨ (∃ x y role, i = .fbSet x y role) ∨ (∃ x y, i = .fbGet x y) ∨ i = .fbClear ∨ ∃ src, i = .fbDraw src) →
    exec i s = .next t →
    t.pins = s.pins ∧ t.busOwner = s.busOwner ∧ t.fsmOwner = s.fsmOwner ∧ t.dstate = s.dstate ∧ t.err = s.err ∧
    t.seqErr = s.seqErr ∧ t.roleRgb = s.roleRgb ∧ t.cfg = s.cfg ∧ t.cur = s.cur ∧
    t.fb.uploadOwner = s.fb.uploadOwner ∧ (∀ p, p ≠ s.cur → t.portAt p = s.portAt p) ∧
    (t.trace = s.trace ∨ ∃ r, t.trace = s.trace ++ [.resp s.cur r]) ∧
    (i = .status → ∀ p a, t.fb.readByte p a = s.fb.readByte p a) ∧
    (∀ x y, i = .fbGet x y → ∀ p a, t.fb.readByte p a = s.fb.readByte p a) ∧
    (∀ x y role, i = .fbSet x y role → ∀ p a, a ≠ pixelIndex s.cfg x.toNat y.toNat →
      t.fb.readByte p a = s.fb.readByte p a) ∧
    (∀ src, i = .fbDraw src → ∀ p a,
      a ≠ pixelIndex s.cfg ((s.seq.pc - 1) % s.cfg.width) ((s.seq.pc - 1) / s.cfg.width) →
      t.fb.readByte p a = s.fb.readByte p a)

/-! ## The environment's draws (00_scope.md R10) -/

/-- A transfer or a busy sample for which no answer is fixed runs, and does what it does with some answer fixed (R10; the
counter `draws` is the model's, log 3). -/
def Obligations.UnfixedDrawsActAsFixed : Prop :=
  ∀ (i : Instr) (s : State),
    (((∃ op skip, stepAt s.cfg i s.seq.pc = some (.xferOp op skip)) ∨
        ∃ src k skip, stepAt s.cfg i s.seq.pc = some (.xferChunk src k skip)) →
      s.env.xferIn = [] →
      ∃ (r : Nat × Bool) (t : State),
        exec i { s with env := { s.env with xferIn := [r] } } = .next t ∧ t.env = s.env ∧
        exec i s = .next { t with env := { s.env with draws := s.env.draws + 1 } }) ∧
    (stepAt s.cfg i s.seq.pc = some .sampleBusy → s.env.busyIn = [] →
      ∃ (lvl : Level) (t : State),
        exec i { s with env := { s.env with busyIn := [lvl] } } = .next t ∧ t.env = s.env ∧
        exec i s = .next { t with env := { s.env with draws := s.env.draws + 1 } })
end

