-- ==== Sys2Proof/Laws/State.lean ====
section
/-! SUPPORT. What each named update of the state leaves as it was and what it sets, field by field, and the running
port's record after it. -/

namespace Sys2Proof.Laws

open Sys2Proof.Machine

variable (s : State)

/-! ## Fields an update leaves as they were -/

@[simp] theorem setPort_cfg (q : Port) : (s.setPort q).cfg = s.cfg := rfl
@[simp] theorem setPort_cur (q : Port) : (s.setPort q).cur = s.cur := rfl
@[simp] theorem setPort_dstate (q : Port) : (s.setPort q).dstate = s.dstate := rfl
@[simp] theorem setPort_fb (q : Port) : (s.setPort q).fb = s.fb := rfl
@[simp] theorem setPort_pins (q : Port) : (s.setPort q).pins = s.pins := rfl
@[simp] theorem setPort_busOwner (q : Port) : (s.setPort q).busOwner = s.busOwner := rfl
@[simp] theorem setPort_fsmOwner (q : Port) : (s.setPort q).fsmOwner = s.fsmOwner := rfl
@[simp] theorem setPort_err (q : Port) : (s.setPort q).err = s.err := rfl
@[simp] theorem setPort_seqErr (q : Port) : (s.setPort q).seqErr = s.seqErr := rfl
@[simp] theorem setPort_fault (q : Port) : (s.setPort q).fault = s.fault := rfl
@[simp] theorem setPort_roleRgb (q : Port) : (s.setPort q).roleRgb = s.roleRgb := rfl
@[simp] theorem setPort_trace (q : Port) : (s.setPort q).trace = s.trace := rfl
@[simp] theorem setPort_env (q : Port) : (s.setPort q).env = s.env := rfl

@[simp] theorem setSeq_cfg (q : Seq) : (s.setSeq q).cfg = s.cfg := rfl
@[simp] theorem setSeq_cur (q : Seq) : (s.setSeq q).cur = s.cur := rfl
@[simp] theorem setSeq_dstate (q : Seq) : (s.setSeq q).dstate = s.dstate := rfl
@[simp] theorem setSeq_fb (q : Seq) : (s.setSeq q).fb = s.fb := rfl
@[simp] theorem setSeq_pins (q : Seq) : (s.setSeq q).pins = s.pins := rfl
@[simp] theorem setSeq_busOwner (q : Seq) : (s.setSeq q).busOwner = s.busOwner := rfl
@[simp] theorem setSeq_fsmOwner (q : Seq) : (s.setSeq q).fsmOwner = s.fsmOwner := rfl
@[simp] theorem setSeq_err (q : Seq) : (s.setSeq q).err = s.err := rfl
@[simp] theorem setSeq_seqErr (q : Seq) : (s.setSeq q).seqErr = s.seqErr := rfl
@[simp] theorem setSeq_fault (q : Seq) : (s.setSeq q).fault = s.fault := rfl
@[simp] theorem setSeq_roleRgb (q : Seq) : (s.setSeq q).roleRgb = s.roleRgb := rfl
@[simp] theorem setSeq_trace (q : Seq) : (s.setSeq q).trace = s.trace := rfl
@[simp] theorem setSeq_env (q : Seq) : (s.setSeq q).env = s.env := rfl

@[simp] theorem advance_cfg (k : Nat) : (s.advance k).cfg = s.cfg := rfl
@[simp] theorem advance_cur (k : Nat) : (s.advance k).cur = s.cur := rfl
@[simp] theorem advance_dstate (k : Nat) : (s.advance k).dstate = s.dstate := rfl
@[simp] theorem advance_fb (k : Nat) : (s.advance k).fb = s.fb := rfl
@[simp] theorem advance_pins (k : Nat) : (s.advance k).pins = s.pins := rfl
@[simp] theorem advance_busOwner (k : Nat) : (s.advance k).busOwner = s.busOwner := rfl
@[simp] theorem advance_fsmOwner (k : Nat) : (s.advance k).fsmOwner = s.fsmOwner := rfl
@[simp] theorem advance_err (k : Nat) : (s.advance k).err = s.err := rfl
@[simp] theorem advance_seqErr (k : Nat) : (s.advance k).seqErr = s.seqErr := rfl
@[simp] theorem advance_fault (k : Nat) : (s.advance k).fault = s.fault := rfl
@[simp] theorem advance_roleRgb (k : Nat) : (s.advance k).roleRgb = s.roleRgb := rfl
@[simp] theorem advance_trace (k : Nat) : (s.advance k).trace = s.trace := rfl
@[simp] theorem advance_env (k : Nat) : (s.advance k).env = s.env := rfl

@[simp] theorem loopBack_cfg : (s.loopBack).cfg = s.cfg := rfl
@[simp] theorem loopBack_cur : (s.loopBack).cur = s.cur := rfl
@[simp] theorem loopBack_dstate : (s.loopBack).dstate = s.dstate := rfl
@[simp] theorem loopBack_fb : (s.loopBack).fb = s.fb := rfl
@[simp] theorem loopBack_pins : (s.loopBack).pins = s.pins := rfl
@[simp] theorem loopBack_busOwner : (s.loopBack).busOwner = s.busOwner := rfl
@[simp] theorem loopBack_fsmOwner : (s.loopBack).fsmOwner = s.fsmOwner := rfl
@[simp] theorem loopBack_err : (s.loopBack).err = s.err := rfl
@[simp] theorem loopBack_seqErr : (s.loopBack).seqErr = s.seqErr := rfl
@[simp] theorem loopBack_fault : (s.loopBack).fault = s.fault := rfl
@[simp] theorem loopBack_roleRgb : (s.loopBack).roleRgb = s.roleRgb := rfl
@[simp] theorem loopBack_trace : (s.loopBack).trace = s.trace := rfl
@[simp] theorem loopBack_env : (s.loopBack).env = s.env := rfl

@[simp] theorem emit_cfg (e : Event) : (s.emit e).cfg = s.cfg := rfl
@[simp] theorem emit_ports (e : Event) : (s.emit e).ports = s.ports := rfl
@[simp] theorem emit_cur (e : Event) : (s.emit e).cur = s.cur := rfl
@[simp] theorem emit_dstate (e : Event) : (s.emit e).dstate = s.dstate := rfl
@[simp] theorem emit_fb (e : Event) : (s.emit e).fb = s.fb := rfl
@[simp] theorem emit_pins (e : Event) : (s.emit e).pins = s.pins := rfl
@[simp] theorem emit_busOwner (e : Event) : (s.emit e).busOwner = s.busOwner := rfl
@[simp] theorem emit_fsmOwner (e : Event) : (s.emit e).fsmOwner = s.fsmOwner := rfl
@[simp] theorem emit_err (e : Event) : (s.emit e).err = s.err := rfl
@[simp] theorem emit_seqErr (e : Event) : (s.emit e).seqErr = s.seqErr := rfl
@[simp] theorem emit_fault (e : Event) : (s.emit e).fault = s.fault := rfl
@[simp] theorem emit_roleRgb (e : Event) : (s.emit e).roleRgb = s.roleRgb := rfl
@[simp] theorem emit_env (e : Event) : (s.emit e).env = s.env := rfl

@[simp] theorem respond_cfg (r : Response) : (s.respond r).cfg = s.cfg := rfl
@[simp] theorem respond_cur (r : Response) : (s.respond r).cur = s.cur := rfl
@[simp] theorem respond_dstate (r : Response) : (s.respond r).dstate = s.dstate := rfl
@[simp] theorem respond_fb (r : Response) : (s.respond r).fb = s.fb := rfl
@[simp] theorem respond_pins (r : Response) : (s.respond r).pins = s.pins := rfl
@[simp] theorem respond_busOwner (r : Response) : (s.respond r).busOwner = s.busOwner := rfl
@[simp] theorem respond_fsmOwner (r : Response) : (s.respond r).fsmOwner = s.fsmOwner := rfl
@[simp] theorem respond_err (r : Response) : (s.respond r).err = s.err := rfl
@[simp] theorem respond_seqErr (r : Response) : (s.respond r).seqErr = s.seqErr := rfl
@[simp] theorem respond_fault (r : Response) : (s.respond r).fault = s.fault := rfl
@[simp] theorem respond_roleRgb (r : Response) : (s.respond r).roleRgb = s.roleRgb := rfl
@[simp] theorem respond_env (r : Response) : (s.respond r).env = s.env := rfl

@[simp] theorem raiseFault_cfg (r : Fault) : (s.raiseFault r).cfg = s.cfg := rfl
@[simp] theorem raiseFault_cur (r : Fault) : (s.raiseFault r).cur = s.cur := rfl
@[simp] theorem raiseFault_dstate (r : Fault) : (s.raiseFault r).dstate = s.dstate := rfl
@[simp] theorem raiseFault_fb (r : Fault) : (s.raiseFault r).fb = s.fb := rfl
@[simp] theorem raiseFault_pins (r : Fault) : (s.raiseFault r).pins = s.pins := rfl
@[simp] theorem raiseFault_busOwner (r : Fault) : (s.raiseFault r).busOwner = s.busOwner := rfl
@[simp] theorem raiseFault_fsmOwner (r : Fault) : (s.raiseFault r).fsmOwner = s.fsmOwner := rfl
@[simp] theorem raiseFault_err (r : Fault) : (s.raiseFault r).err = s.err := rfl
@[simp] theorem raiseFault_seqErr (r : Fault) : (s.raiseFault r).seqErr = s.seqErr := rfl
@[simp] theorem raiseFault_roleRgb (r : Fault) : (s.raiseFault r).roleRgb = s.roleRgb := rfl
@[simp] theorem raiseFault_trace (r : Fault) : (s.raiseFault r).trace = s.trace := rfl
@[simp] theorem raiseFault_env (r : Fault) : (s.raiseFault r).env = s.env := rfl

@[simp] theorem pinWrite_cfg (p : Pin) (l : Level) : (s.pinWrite p l).cfg = s.cfg := rfl
@[simp] theorem pinWrite_ports (p : Pin) (l : Level) : (s.pinWrite p l).ports = s.ports := rfl
@[simp] theorem pinWrite_cur (p : Pin) (l : Level) : (s.pinWrite p l).cur = s.cur := rfl
@[simp] theorem pinWrite_dstate (p : Pin) (l : Level) : (s.pinWrite p l).dstate = s.dstate := rfl
@[simp] theorem pinWrite_fb (p : Pin) (l : Level) : (s.pinWrite p l).fb = s.fb := rfl
@[simp] theorem pinWrite_busOwner (p : Pin) (l : Level) : (s.pinWrite p l).busOwner = s.busOwner := rfl
@[simp] theorem pinWrite_fsmOwner (p : Pin) (l : Level) : (s.pinWrite p l).fsmOwner = s.fsmOwner := rfl
@[simp] theorem pinWrite_err (p : Pin) (l : Level) : (s.pinWrite p l).err = s.err := rfl
@[simp] theorem pinWrite_seqErr (p : Pin) (l : Level) : (s.pinWrite p l).seqErr = s.seqErr := rfl
@[simp] theorem pinWrite_fault (p : Pin) (l : Level) : (s.pinWrite p l).fault = s.fault := rfl
@[simp] theorem pinWrite_roleRgb (p : Pin) (l : Level) : (s.pinWrite p l).roleRgb = s.roleRgb := rfl
@[simp] theorem pinWrite_env (p : Pin) (l : Level) : (s.pinWrite p l).env = s.env := rfl

@[simp] theorem delay_cfg (d : DelayName) : (s.delay d).cfg = s.cfg := rfl
@[simp] theorem delay_ports (d : DelayName) : (s.delay d).ports = s.ports := rfl
@[simp] theorem delay_cur (d : DelayName) : (s.delay d).cur = s.cur := rfl
@[simp] theorem delay_dstate (d : DelayName) : (s.delay d).dstate = s.dstate := rfl
@[simp] theorem delay_fb (d : DelayName) : (s.delay d).fb = s.fb := rfl
@[simp] theorem delay_pins (d : DelayName) : (s.delay d).pins = s.pins := rfl
@[simp] theorem delay_busOwner (d : DelayName) : (s.delay d).busOwner = s.busOwner := rfl
@[simp] theorem delay_fsmOwner (d : DelayName) : (s.delay d).fsmOwner = s.fsmOwner := rfl
@[simp] theorem delay_err (d : DelayName) : (s.delay d).err = s.err := rfl
@[simp] theorem delay_seqErr (d : DelayName) : (s.delay d).seqErr = s.seqErr := rfl
@[simp] theorem delay_fault (d : DelayName) : (s.delay d).fault = s.fault := rfl
@[simp] theorem delay_roleRgb (d : DelayName) : (s.delay d).roleRgb = s.roleRgb := rfl
@[simp] theorem delay_env (d : DelayName) : (s.delay d).env = s.env := rfl

@[simp] theorem popInbox_cfg : (s.popInbox).cfg = s.cfg := rfl
@[simp] theorem popInbox_cur : (s.popInbox).cur = s.cur := rfl
@[simp] theorem popInbox_dstate : (s.popInbox).dstate = s.dstate := rfl
@[simp] theorem popInbox_fb : (s.popInbox).fb = s.fb := rfl
@[simp] theorem popInbox_pins : (s.popInbox).pins = s.pins := rfl
@[simp] theorem popInbox_busOwner : (s.popInbox).busOwner = s.busOwner := rfl
@[simp] theorem popInbox_fsmOwner : (s.popInbox).fsmOwner = s.fsmOwner := rfl
@[simp] theorem popInbox_err : (s.popInbox).err = s.err := rfl
@[simp] theorem popInbox_seqErr : (s.popInbox).seqErr = s.seqErr := rfl
@[simp] theorem popInbox_fault : (s.popInbox).fault = s.fault := rfl
@[simp] theorem popInbox_roleRgb : (s.popInbox).roleRgb = s.roleRgb := rfl
@[simp] theorem popInbox_trace : (s.popInbox).trace = s.trace := rfl
@[simp] theorem popInbox_env : (s.popInbox).env = s.env := rfl

@[simp] theorem accept_cfg (i : Instr) : (s.accept i).cfg = s.cfg := rfl
@[simp] theorem accept_cur (i : Instr) : (s.accept i).cur = s.cur := rfl
@[simp] theorem accept_dstate (i : Instr) : (s.accept i).dstate = s.dstate := rfl
@[simp] theorem accept_fb (i : Instr) : (s.accept i).fb = s.fb := rfl
@[simp] theorem accept_pins (i : Instr) : (s.accept i).pins = s.pins := rfl
@[simp] theorem accept_busOwner (i : Instr) : (s.accept i).busOwner = s.busOwner := rfl
@[simp] theorem accept_fsmOwner (i : Instr) : (s.accept i).fsmOwner = s.fsmOwner := rfl
@[simp] theorem accept_err (i : Instr) : (s.accept i).err = s.err := rfl
@[simp] theorem accept_seqErr (i : Instr) : (s.accept i).seqErr = s.seqErr := rfl
@[simp] theorem accept_fault (i : Instr) : (s.accept i).fault = s.fault := rfl
@[simp] theorem accept_roleRgb (i : Instr) : (s.accept i).roleRgb = s.roleRgb := rfl
@[simp] theorem accept_trace (i : Instr) : (s.accept i).trace = s.trace := rfl
@[simp] theorem accept_env (i : Instr) : (s.accept i).env = s.env := rfl

@[simp] theorem running_cfg (p : Nat) : (s.running p).cfg = s.cfg := rfl
@[simp] theorem running_ports (p : Nat) : (s.running p).ports = s.ports := rfl
@[simp] theorem running_dstate (p : Nat) : (s.running p).dstate = s.dstate := rfl
@[simp] theorem running_fb (p : Nat) : (s.running p).fb = s.fb := rfl
@[simp] theorem running_pins (p : Nat) : (s.running p).pins = s.pins := rfl
@[simp] theorem running_busOwner (p : Nat) : (s.running p).busOwner = s.busOwner := rfl
@[simp] theorem running_fsmOwner (p : Nat) : (s.running p).fsmOwner = s.fsmOwner := rfl
@[simp] theorem running_err (p : Nat) : (s.running p).err = s.err := rfl
@[simp] theorem running_seqErr (p : Nat) : (s.running p).seqErr = s.seqErr := rfl
@[simp] theorem running_fault (p : Nat) : (s.running p).fault = s.fault := rfl
@[simp] theorem running_roleRgb (p : Nat) : (s.running p).roleRgb = s.roleRgb := rfl
@[simp] theorem running_trace (p : Nat) : (s.running p).trace = s.trace := rfl
@[simp] theorem running_env (p : Nat) : (s.running p).env = s.env := rfl

/-! ## Fields an update sets -/

@[simp] theorem setPort_ports (q : Port) : (s.setPort q).ports = s.ports.set s.cur q := rfl
@[simp] theorem setSeq_ports (q : Seq) : (s.setSeq q).ports = s.ports.set s.cur { s.port with seq := q } := rfl
@[simp] theorem advance_ports (k : Nat) :
    (s.advance k).ports = s.ports.set s.cur { s.port with seq := { s.seq with pc := s.seq.pc + k } } := rfl
@[simp] theorem loopBack_ports :
    s.loopBack.ports = s.ports.set s.cur { s.port with seq := { s.seq with pc := s.seq.pc - 1 } } := rfl
@[simp] theorem emit_trace (e : Event) : (s.emit e).trace = s.trace ++ [e] := rfl
@[simp] theorem respond_ports (r : Response) :
    (s.respond r).ports = s.ports.set s.cur { s.port with seq := Seq.idle } := rfl
@[simp] theorem respond_trace (r : Response) : (s.respond r).trace = s.trace ++ [.resp s.cur r] := rfl
@[simp] theorem raiseFault_ports (r : Fault) :
    (s.raiseFault r).ports = s.ports.set s.cur { s.port with seq := { s.seq with op := .stopped } } := rfl
@[simp] theorem raiseFault_fault (r : Fault) : (s.raiseFault r).fault = s.fault.or (some r) := rfl
@[simp] theorem pinWrite_pins (p : Pin) (l : Level) : (s.pinWrite p l).pins = s.pins.drive p l := rfl
@[simp] theorem pinWrite_trace (p : Pin) (l : Level) : (s.pinWrite p l).trace = s.trace ++ [.pin p l] := rfl
@[simp] theorem delay_trace (d : DelayName) : (s.delay d).trace = s.trace ++ [.delay d] := rfl
@[simp] theorem running_cur (p : Nat) : (s.running p).cur = p := rfl

/-! ## The running port's record after an update -/

/-- A list read where it has just been set. -/
theorem getD_set_self {α : Type} (l : List α) (k : Nat) (v d : α) (h : k < l.length) : (l.set k v).getD k d = v := by
  simp [List.getD, h]

/-- A list read elsewhere. -/
theorem getD_set_other {α : Type} (l : List α) (j k : Nat) (v d : α) (h : j ≠ k) :
    (l.set j v).getD k d = l.getD k d := by
  simp [List.getD, h]

theorem setPort_port (q : Port) (h : s.cur < s.ports.length) : (s.setPort q).port = q :=
  getD_set_self _ _ _ _ h

theorem setPort_portAt_other (q : Port) (p : Nat) (h : p ≠ s.cur) : (s.setPort q).portAt p = s.portAt p :=
  getD_set_other _ _ _ _ _ h.symm

theorem setSeq_seq (q : Seq) (h : s.cur < s.ports.length) : (s.setSeq q).seq = q :=
  congrArg Port.seq (setPort_port s _ h)

theorem setSeq_portAt_other (q : Seq) (p : Nat) (h : p ≠ s.cur) : (s.setSeq q).portAt p = s.portAt p :=
  setPort_portAt_other s _ p h

@[simp] theorem setPort_length (q : Port) : (s.setPort q).ports.length = s.ports.length := by simp
@[simp] theorem setSeq_length (q : Seq) : (s.setSeq q).ports.length = s.ports.length := by simp
@[simp] theorem emit_port (e : Event) : (s.emit e).port = s.port := rfl
@[simp] theorem emit_seq (e : Event) : (s.emit e).seq = s.seq := rfl
@[simp] theorem emit_portAt (e : Event) (p : Nat) : (s.emit e).portAt p = s.portAt p := rfl

/-! ## The environment's draws: only `env` changes -/

theorem drawBusy_snd : s.drawBusy.2 = { s with env := s.drawBusy.2.env } := by
  unfold State.drawBusy; split <;> rfl

theorem drawXfer_snd : s.drawXfer.2 = { s with env := s.drawXfer.2.env } := by
  unfold State.drawXfer; split <;> rfl

theorem drawPort_snd : s.drawPort.2 = { s with env := s.drawPort.2.env } := by
  unfold State.drawPort; split <;> rfl

theorem drawRole_snd : s.drawRole.2 = { s with env := s.drawRole.2.env } := rfl

theorem drawBusy_cons (b : Level) (rest : List Level) (h : s.env.busyIn = b :: rest) :
    s.drawBusy = (b, { s with env := { s.env with busyIn := rest } }) := by
  unfold State.drawBusy; rw [h]

theorem drawXfer_cons (r : Nat × Bool) (rest : List (Nat × Bool)) (h : s.env.xferIn = r :: rest) :
    s.drawXfer = (r, { s with env := { s.env with xferIn := rest } }) := by
  unfold State.drawXfer; rw [h]

theorem drawPort_cons (p : Nat) (rest : List Nat) (h : s.env.sched = p :: rest) :
    s.drawPort = (p, { s with env := { s.env with sched := rest } }) := by
  unfold State.drawPort; rw [h]

/-! ## The sent count of a response -/

theorem sentWord_of_lt (n : Nat) (h : n < 2 ^ 32) : sentWord n = BitVec.ofNat 32 n := if_pos h

theorem sentWord_toNat (n : Nat) (h : n < 2 ^ 32) : (sentWord n).toNat = n := by
  rw [sentWord_of_lt n h, BitVec.toNat_ofNat, Nat.mod_eq_of_lt h]

end Sys2Proof.Laws
end

