-- ==== Sys2Proof/Laws/Exec.lean ====
section
/-! SUPPORT. What one step can do, said once: `exec` by cases (the micro-step at `pc`, or a request of one step), `step` by
cases, and each shared micro-step when it answers a next state. -/

namespace Sys2Proof.Laws

open Sys2Proof.Machine

/-! ## exec -/

/-- An instruction with a micro-step at `pc` runs it, but for a DISPLAY that its length check refuses. -/
theorem exec_of_stepAt (i : Instr) (s : State) (m : Micro) (h : stepAt s.cfg i s.seq.pc = some m)
    (hd : ∀ b hl, i = .display b hl → s.seq.pc = 0 → tooLong s.cfg b hl = false) : exec i s = runMicro m s := by
  cases i with
  | display b hl =>
    have hc : ¬(s.seq.pc = 0 ∧ tooLong s.cfg b hl = true) := fun hp => by simp [hd b hl rfl hp.1] at hp
    simp only [exec, execDisplay, if_neg hc, runSteps]
    rw [show (displaySteps s.cfg b hl)[s.seq.pc]? = some m from h]; rfl
  | fbDraw src =>
    simp only [exec, execFbDraw]
    rw [show drawStepAt s.cfg src s.seq.pc = some m from h]; rfl
  | status | fbSet _ _ _ | fbGet _ _ | fbClear => simp [stepAt, stepList] at h
  | init | displayFb | clear | sleep | chCmd _ _ | chData _ | wSwreset | wAutowriteHl _ | wAutowriteBw _ | wSoftstart _
  | wGate _ | wDataEntry _ | wRamxWindow _ | wRamyWindow _ | wBorder _ | wTempSensor _ | wUpdateCtrl2 _ | wMasterAct
  | wWriteBw _ | wWriteHl _ | wRamxCounter _ | wRamyCounter _ | wDeepSleep => exact congrArg (runStep · s) h

/-- Everything `exec` can do: the micro-step at `pc`; a DISPLAY refused for its length; one of the four requests of one
step; or, where there is no micro-step at `pc`, a refusal. -/
theorem exec_cases (i : Instr) (s : State) :
    (∃ m, stepAt s.cfg i s.seq.pc = some m ∧ exec i s = runMicro m s) ∨
    (∃ b hl, i = .display b hl ∧ s.seq.pc = 0 ∧ tooLong s.cfg b hl = true ∧
      exec i s = .next (s.respond (refuseResp .len .empty))) ∨
    (i = .status ∧ exec i s = execStatus s) ∨
    (∃ x y r, i = .fbSet x y r ∧ exec i s = execFbSet x y r s) ∨
    (∃ x y, i = .fbGet x y ∧ exec i s = execFbGet x y s) ∨
    (i = .fbClear ∧ exec i s = execFbClear s) ∨
    (stepAt s.cfg i s.seq.pc = none ∧ exec i s = .refused .noMicroStep) := by
  rcases hm : stepAt s.cfg i s.seq.pc with _ | m
  · cases i with
    | status => exact .inr (.inr (.inl ⟨rfl, rfl⟩))
    | fbSet x y r => exact .inr (.inr (.inr (.inl ⟨x, y, r, rfl, rfl⟩)))
    | fbGet x y => exact .inr (.inr (.inr (.inr (.inl ⟨x, y, rfl, rfl⟩))))
    | fbClear => exact .inr (.inr (.inr (.inr (.inr (.inl ⟨rfl, rfl⟩)))))
    | display b hl =>
      by_cases hc : s.seq.pc = 0 ∧ tooLong s.cfg b hl = true
      · exact .inr (.inl ⟨b, hl, rfl, hc.1, hc.2, if_pos hc⟩)
      · refine .inr (.inr (.inr (.inr (.inr (.inr ⟨rfl, ?_⟩)))))
        exact (if_neg hc).trans (congrArg (runStep · s) hm)
    | fbDraw _ | init | displayFb | clear | sleep | chCmd _ _ | chData _ | wSwreset | wAutowriteHl _ | wAutowriteBw _
    | wSoftstart _ | wGate _ | wDataEntry _ | wRamxWindow _ | wRamyWindow _ | wBorder _ | wTempSensor _ | wUpdateCtrl2 _
    | wMasterAct | wWriteBw _ | wWriteHl _ | wRamxCounter _ | wRamyCounter _ | wDeepSleep =>
      exact .inr (.inr (.inr (.inr (.inr (.inr ⟨rfl, congrArg (runStep · s) hm⟩)))))
  · by_cases hc : ∃ b hl, i = .display b hl ∧ s.seq.pc = 0 ∧ tooLong s.cfg b hl = true
    · obtain ⟨b, hl, rfl, h0, ht⟩ := hc
      exact .inr (.inl ⟨b, hl, rfl, h0, ht, if_pos ⟨h0, ht⟩⟩)
    · refine .inl ⟨m, rfl, exec_of_stepAt i s m hm fun b hl he h0 => ?_⟩
      by_contra ht
      exact hc ⟨b, hl, he, h0, by simpa using ht⟩

/-! ## step -/

/-- Everything `step` can do: nothing beyond the choice of a port; an illegal request answered; a request accepted and its
first micro-step run; or the micro-step of a request in progress. -/
theorem step_cases (s : State) :
    let p := s.drawPort.1
    let u := s.drawPort.2.running p
    (s.ports.length ≤ p ∧ step s = .next s.drawPort.2) ∨
    (p < s.ports.length ∧
      ((u.seq.op = .stopped ∧ step s = .next u) ∨
       (u.seq.op = .idle ∧ u.port.inbox = [] ∧ step s = .next u) ∨
       (u.seq.op = .idle ∧ (∃ r rest e, u.port.inbox = r :: rest ∧ decode (.request r.word r.blocks) = .error e) ∧
         step s = .next u.respondIllegal) ∨
       (u.seq.op = .idle ∧ ∃ r rest i, u.port.inbox = r :: rest ∧ decode (.request r.word r.blocks) = .ok i ∧
         step s = exec i (u.accept i)) ∨
       (∃ i, u.seq.op = .busy i ∧ step s = exec i u))) := by
  intro p u
  by_cases hp : p < s.ports.length
  · refine .inr ⟨hp, ?_⟩
    have hs : step s = match fetchPort u with
        | .run i t => exec i t
        | .rest t => .next t := by
      show (match fetch s with | .run i t => exec i t | .rest t => .next t) = _
      rw [show fetch s = fetchPort u from if_pos hp]
    rw [hs]
    unfold fetchPort
    rcases hi : u.seq.op with _ | i | _
    · rcases hb : u.port.inbox with _ | ⟨r, rest⟩
      · exact .inr (.inl ⟨rfl, rfl, rfl⟩)
      · rcases hd : decode (.request r.word r.blocks) with e | i
        · exact .inr (.inr (.inl ⟨rfl, ⟨r, rest, e, rfl, hd⟩, by simp only [hd]⟩))
        · exact .inr (.inr (.inr (.inl ⟨rfl, r, rest, i, rfl, hd, by simp only [hd]⟩)))
    · exact .inr (.inr (.inr (.inr ⟨i, rfl, rfl⟩)))
    · exact .inl ⟨rfl, rfl⟩
  · refine .inl ⟨by omega, ?_⟩
    show (match fetch s with | .run i t => exec i t | .rest t => .next t) = _
    rw [show fetch s = .rest s.drawPort.2 from if_neg hp]

/-! ## Shared micro-steps -/

/-- `Acquire(BUS)` with the lock free. -/
theorem microAcquire_free (s : State) (h : s.busOwner = none) :
    microAcquire s = .next (({ s with busOwner := some s.cur, trace := s.trace ++ [.lock s.cur .acq] } : State).setSeq
      { s.seq with pc := s.seq.pc + 1, sent := 0, ok := true }) := by
  unfold microAcquire; rw [h]; rfl

/-- `Acquire(BUS)` with the lock taken: the port is held. -/
theorem microAcquire_held (s : State) (p : Nat) (h : s.busOwner = some p) : microAcquire s = .next s := by
  unfold microAcquire; rw [h]

/-- `Release(BUS)` by the owner. -/
theorem releaseBus_owner (k : Nat) (s : State) (h : s.busOwner = some s.cur) :
    releaseBus k s = .next (({ s with busOwner := none, trace := s.trace ++ [.lock s.cur .rel] } : State).setSeq
      { s.seq with pc := s.seq.pc + k }) := if_pos h

/-- `Release(BUS)` answers a next state only for the owner. -/
theorem releaseBus_next (k : Nat) (s t : State) (h : releaseBus k s = .next t) : s.busOwner = some s.cur := by
  unfold releaseBus at h
  split at h
  · assumption
  · cases h

/-- A transfer changes the trace and the environment, and accepts no more bytes than it was given. -/
theorem xfer_spec (s : State) (bytes : List Byte) :
    (s.xfer bytes).1.1 ≤ bytes.length ∧
    (s.xfer bytes).2 = { s with env := s.drawXfer.2.env, trace := s.trace ++
      [.xfer s.cur bytes (s.xfer bytes).1.1 (s.xfer bytes).1.2] } := by
  refine ⟨Nat.min_le_right _ _, ?_⟩
  show (s.drawXfer.2).emit _ = _
  rw [drawXfer_snd]; rfl

/-- A transfer whose next fixed outcome succeeds. -/
theorem xfer_good (s : State) (bytes : List Byte) (r : Nat × Bool) (rest : List (Nat × Bool))
    (h : s.env.xferIn = r :: rest) (hr : r.2 = true) (hn : bytes.length ≤ r.1) :
    s.xfer bytes = ((bytes.length, true), { s with env := { s.env with xferIn := rest }, trace := s.trace ++
      [.xfer s.cur bytes bytes.length true] }) := by
  unfold State.xfer
  rw [drawXfer_cons s r rest h]
  simp only [hr, Nat.min_eq_right hn]; rfl

/-- ENTRY with the FSM free, allowed (41_protocol.md R153). -/
theorem protocolEntry_allowed (k : Proto) (s : State) (h : s.fsmOwner = none) (ha : allowedFrom k s.dstate = true) :
    protocolEntry k s = .next (({ s with fsmOwner := some s.cur, dstate := entryState k s.dstate } : State).setSeq
      { s.seq with pc := s.seq.pc + 1 }) := by
  unfold protocolEntry; rw [h]; simp only [ha, if_true]; rfl

/-- ENTRY with the FSM free, out of sequence (R152). -/
theorem protocolEntry_refused (k : Proto) (s : State) (h : s.fsmOwner = none) (ha : allowedFrom k s.dstate = false) :
    protocolEntry k s = .next (({ s with fsmOwner := some s.cur, seqErr := true } : State).setSeq
      { s.seq with pc := s.seq.pc + 1, sq := true }) := by
  unfold protocolEntry; rw [h]; simp only [ha]; rfl

/-- ENTRY with the FSM taken: the port is held. -/
theorem protocolEntry_held (k : Proto) (s : State) (p : Nat) (h : s.fsmOwner = some p) : protocolEntry k s = .next s := by
  unfold protocolEntry; rw [h]

/-- EXIT by the owner. -/
theorem protocolExit_owner (k : Proto) (s : State) (h : s.fsmOwner = some s.cur) :
    protocolExit k s = .next (({ s with fsmOwner := none, dstate := if s.seq.sq then s.dstate else endState k } : State).respond
      { code := .ok, xf := s.seq.xf, sq := s.seq.sq, data := .empty }) := if_pos h

/-- EXIT answers a next state only for the owner. -/
theorem protocolExit_next (k : Proto) (s t : State) (h : protocolExit k s = .next t) : s.fsmOwner = some s.cur := by
  unfold protocolExit at h
  split at h
  · assumption
  · cases h

/-- A busy sample that reads ready goes on to the settle delay. -/
theorem microSampleBusy_ready (s : State) (rest : List Level) (h : s.env.busyIn = s.cfg.busyReady :: rest) :
    microSampleBusy s = .next (({ s with env := { s.env with busyIn := rest }, trace := s.trace ++ [.busy s.cfg.busyReady] } : State).advance 2) := by
  unfold microSampleBusy
  rw [drawBusy_cons s _ rest h]
  simp only [if_true]; rfl

/-- A busy sample that reads the other level goes on to the poll delay. -/
theorem microSampleBusy_notReady (s : State) (rest : List Level) (h : s.env.busyIn = (!s.cfg.busyReady) :: rest) :
    microSampleBusy s = .next (({ s with env := { s.env with busyIn := rest }, trace := s.trace ++ [.busy !s.cfg.busyReady] } : State).advance 1) := by
  unfold microSampleBusy
  rw [drawBusy_cons s _ rest h]
  simp only
  rw [if_neg (by simp)]; rfl

/-! ## Runs of one instruction -/

theorem execN_add (i : Instr) (m n : Nat) (s : State) :
    execN i (m + n) s = match execN i m s with
      | .next t => execN i n t
      | o => o := by
  induction m generalizing s with
  | zero => simp [execN]
  | succ m ih =>
    rw [Nat.add_right_comm, execN, execN]
    cases exec i s with
    | next t => exact ih t
    | fault r => rfl
    | refused r => rfl

/-- Runs compose. -/
theorem execN_trans (i : Instr) (m n : Nat) (s t u : State) (h : execN i m s = .next t) (h' : execN i n t = .next u) :
    execN i (m + n) s = .next u := by
  rw [execN_add, h]; exact h'

end Sys2Proof.Laws
end

