-- ==== Sys2Proof/Laws/Memory.lean ====
section
/-! SUPPORT. The laws of a plane's memory: a read after a write, the canonical form kept by every operation, and the
reads of the framebuffer after a pixel write. -/

namespace Sys2Proof.Laws

open Sys2Proof.Machine

/-! ## Reading after writing -/

/-- Below its first listed address a memory reads as unlisted. -/
theorem read_of_lt (d : Byte) (m : List Host.Cell) (lo a : Nat) (h : Memory.wfFrom d lo m = true) (ha : a < lo) :
    Memory.read d m a = d := by
  induction m generalizing lo with
  | nil => rfl
  | cons c m ih =>
    obtain ⟨b, w⟩ := c
    simp only [Memory.wfFrom, Bool.and_eq_true, decide_eq_true_eq] at h
    simp only [Memory.read]
    rw [if_neg (by omega)]
    exact ih (b + 1) h.2 (by omega)

/-- A read of the address just written gives the value written. -/
theorem read_write_same (d : Byte) (m : List Host.Cell) (lo a : Nat) (v : Byte) (h : Memory.wfFrom d lo m = true) :
    Memory.read d (Memory.write d m a v) a = v := by
  induction m generalizing lo with
  | nil => by_cases hv : v = d <;> simp [Memory.write, Memory.read, hv]
  | cons c m ih =>
    obtain ⟨b, w⟩ := c
    simp only [Memory.wfFrom, Bool.and_eq_true, decide_eq_true_eq] at h
    simp only [Memory.write]
    by_cases h1 : a < b
    · rw [if_pos h1]
      by_cases hv : v = d
      · rw [if_pos hv, Memory.read, if_neg (by omega), read_of_lt d m (b + 1) a h.2 (by omega), hv]
      · simp [hv, Memory.read]
    · rw [if_neg h1]
      by_cases h2 : a = b
      · rw [if_pos h2]
        by_cases hv : v = d
        · rw [if_pos hv, read_of_lt d m (b + 1) a h.2 (by omega), hv]
        · simp [hv, Memory.read]
      · rw [if_neg h2, Memory.read, if_neg h2]
        exact ih (b + 1) h.2

/-- A write leaves every other address as it was. -/
theorem read_write_other (d : Byte) (m : List Host.Cell) (a c : Nat) (v : Byte) (hc : c ≠ a) :
    Memory.read d (Memory.write d m a v) c = Memory.read d m c := by
  induction m with
  | nil => by_cases hv : v = d <;> simp [Memory.write, Memory.read, hv, hc]
  | cons x m ih =>
    obtain ⟨b, w⟩ := x
    simp only [Memory.write]
    split
    · split <;> simp [Memory.read, hc]
    · split
      · rename_i h1 h2
        subst h2
        split <;> simp [Memory.read, hc]
      · simp only [Memory.read, ih]

/-! ## The canonical form -/

theorem wfFrom_mono (d : Byte) (m : List Host.Cell) (lo lo' : Nat) (h : Memory.wfFrom d lo m = true) (hl : lo' ≤ lo) :
    Memory.wfFrom d lo' m = true := by
  cases m with
  | nil => rfl
  | cons c m =>
    obtain ⟨b, w⟩ := c
    simp only [Memory.wfFrom, Bool.and_eq_true, decide_eq_true_eq] at h ⊢
    exact ⟨⟨by omega, h.1.2⟩, h.2⟩

theorem wfFrom_write (d : Byte) (m : List Host.Cell) (lo a : Nat) (v : Byte) (h : Memory.wfFrom d lo m = true)
    (ha : lo ≤ a) : Memory.wfFrom d lo (Memory.write d m a v) = true := by
  induction m generalizing lo with
  | nil => by_cases hv : v = d <;> simp [Memory.write, Memory.wfFrom, hv, ha]
  | cons c m ih =>
    obtain ⟨b, w⟩ := c
    have h0 := h
    simp only [Memory.wfFrom, Bool.and_eq_true, decide_eq_true_eq] at h
    simp only [Memory.write]
    split
    · split
      · exact h0
      · rename_i h1 hv
        simp only [Memory.wfFrom, Bool.and_eq_true, decide_eq_true_eq]
        exact ⟨⟨ha, hv⟩, ⟨by omega, h.1.2⟩, h.2⟩
    · split
      · rename_i h2
        subst h2
        split
        · exact wfFrom_mono d m _ _ h.2 (by omega)
        · rename_i hv
          simp only [Memory.wfFrom, Bool.and_eq_true, decide_eq_true_eq]
          exact ⟨⟨ha, hv⟩, h.2⟩
      · rename_i h1 h2
        simp only [Memory.wfFrom, Bool.and_eq_true, decide_eq_true_eq]
        exact ⟨h.1, ih (b + 1) h.2 (by omega)⟩

/-- A write keeps the canonical form. -/
theorem wf_write (d : Byte) (m : List Host.Cell) (a : Nat) (v : Byte) (h : Memory.wf d m = true) :
    Memory.wf d (Memory.write d m a v) = true := wfFrom_write d m 0 a v h (Nat.zero_le a)

/-- A write below `n` keeps every listed address below `n`. -/
theorem below_write (d : Byte) (n : Nat) (m : List Host.Cell) (a : Nat) (v : Byte) (h : Memory.below n m = true)
    (ha : a < n) : Memory.below n (Memory.write d m a v) = true := by
  induction m with
  | nil => by_cases hv : v = d <;> simp [Memory.write, Memory.below, hv, ha]
  | cons c m ih =>
    obtain ⟨b, w⟩ := c
    have h0 := h
    simp only [Memory.below, Bool.and_eq_true, decide_eq_true_eq] at h
    simp only [Memory.write]
    split
    · split
      · exact h0
      · simp [Memory.below, ha, h.1, h.2]
    · split
      · split
        · exact h.2
        · simp [Memory.below, ha, h.2]
      · simp [Memory.below, h.1, ih h.2]

/-- Memories in canonical form that read the same are the same list. -/
theorem eq_of_read_eq (d : Byte) (m m' : List Host.Cell) (lo : Nat) (h : Memory.wfFrom d lo m = true)
    (h' : Memory.wfFrom d lo m' = true) (hr : ∀ a, Memory.read d m a = Memory.read d m' a) : m = m' := by
  induction m generalizing m' lo with
  | nil =>
    cases m' with
    | nil => rfl
    | cons c m' =>
      obtain ⟨b, w⟩ := c
      simp only [Memory.wfFrom, Bool.and_eq_true, decide_eq_true_eq] at h'
      have := hr b
      simp [Memory.read] at this
      exact absurd this.symm h'.1.2
  | cons c m ih =>
    obtain ⟨b, w⟩ := c
    simp only [Memory.wfFrom, Bool.and_eq_true, decide_eq_true_eq] at h
    cases m' with
    | nil =>
      have := hr b
      simp [Memory.read] at this
      exact absurd this h.1.2
    | cons c' m' =>
      obtain ⟨b', w'⟩ := c'
      simp only [Memory.wfFrom, Bool.and_eq_true, decide_eq_true_eq] at h'
      have hb : b = b' := by
        rcases Nat.lt_trichotomy b b' with hlt | heq | hgt
        · have := hr b
          rw [Memory.read, if_pos rfl, Memory.read, if_neg (by omega),
            read_of_lt d m' (b' + 1) b h'.2 (by omega)] at this
          exact absurd this h.1.2
        · exact heq
        · have := hr b'
          rw [Memory.read, if_neg (by omega), read_of_lt d m (b + 1) b' h.2 (by omega), Memory.read,
            if_pos rfl] at this
          exact absurd this.symm h'.1.2
      subst hb
      have hw : w = w' := by
        have := hr b
        simpa [Memory.read] using this
      subst hw
      have ht : m = m' := by
        apply ih m' (b + 1) h.2 h'.2
        intro a
        by_cases ha : a = b
        · subst ha
          rw [read_of_lt d m (a + 1) a h.2 (by omega), read_of_lt d m' (a + 1) a h'.2 (by omega)]
        · have := hr a
          simpa [Memory.read, ha] using this
      rw [ht]

/-! ## The framebuffer -/

theorem readByte_writeByte_same (f : FrameBuf) (p : Plane) (i : Nat) (v : Byte)
    (h : Memory.wf (planeFill p) (f.cells p) = true) : (f.writeByte p i v).readByte p i = v := by
  cases p <;> exact read_write_same _ _ 0 i v h

theorem readByte_writeByte_other (f : FrameBuf) (p q : Plane) (i a : Nat) (v : Byte) (h : q ≠ p ∨ a ≠ i) :
    (f.writeByte p i v).readByte q a = f.readByte q a := by
  cases p <;> cases q <;> simp at h <;>
    first
      | exact read_write_other _ _ _ _ _ h
      | rfl

/-- A pixel write leaves the bytes at every other address as they were. -/
theorem readByte_writePixel_other (f : FrameBuf) (c : Cfg) (x y : Nat) (r : Role) (p : Plane) (a : Nat)
    (h : a ≠ pixelIndex c x y) : (f.writePixel c x y r).readByte p a = f.readByte p a := by
  unfold FrameBuf.writePixel
  rw [readByte_writeByte_other _ _ _ _ _ _ (Or.inr h), readByte_writeByte_other _ _ _ _ _ _ (Or.inr h)]

/-- The byte of `BLACK` a pixel write leaves at the pixel's index (43_framebuffer.md R230). -/
theorem readByte_writePixel_black (f : FrameBuf) (c : Cfg) (x y : Nat) (r : Role)
    (hb : Memory.wf (planeFill .black) f.black = true) :
    (f.writePixel c x y r).readByte .black (pixelIndex c x y) =
      withBit (f.readByte .black (pixelIndex c x y)) (pixelMask x) (rolePair r).1 := by
  unfold FrameBuf.writePixel
  rw [readByte_writeByte_other _ _ _ _ _ _ (Or.inl (by decide)), readByte_writeByte_same _ _ _ _ hb]

/-- The byte of `HL` a pixel write leaves at the pixel's index (43_framebuffer.md R230). -/
theorem readByte_writePixel_hl (f : FrameBuf) (c : Cfg) (x y : Nat) (r : Role)
    (hh : Memory.wf (planeFill .hl) f.hl = true) :
    (f.writePixel c x y r).readByte .hl (pixelIndex c x y) =
      withBit (f.readByte .hl (pixelIndex c x y)) (pixelMask x) (rolePair r).2 := by
  unfold FrameBuf.writePixel
  rw [readByte_writeByte_same _ _ _ _ (by simpa [FrameBuf.writeByte, FrameBuf.cells] using hh)]

/-- A pixel write keeps both planes in canonical form. -/
theorem wf_writePixel (f : FrameBuf) (c : Cfg) (x y : Nat) (r : Role)
    (hb : Memory.wf (planeFill .black) f.black = true) (hh : Memory.wf (planeFill .hl) f.hl = true) :
    Memory.wf (planeFill .black) (f.writePixel c x y r).black = true ∧
      Memory.wf (planeFill .hl) (f.writePixel c x y r).hl = true :=
  ⟨wf_write _ _ _ _ hb, wf_write _ _ _ _ hh⟩

/-- FB_CLEAR's planes are in canonical form. -/
theorem wf_cleared (f : FrameBuf) :
    Memory.wf (planeFill .black) f.cleared.black = true ∧ Memory.wf (planeFill .hl) f.cleared.hl = true := ⟨rfl, rfl⟩

/-- FB_CLEAR's planes read as its constants everywhere. -/
theorem readByte_cleared (f : FrameBuf) (p : Plane) (a : Nat) : f.cleared.readByte p a = planeFill p := by
  cases p <;> rfl

@[simp] theorem writePixel_race (f : FrameBuf) (c : Cfg) (x y : Nat) (r : Role) :
    (f.writePixel c x y r).race = f.race := rfl
@[simp] theorem writePixel_drawOwner (f : FrameBuf) (c : Cfg) (x y : Nat) (r : Role) :
    (f.writePixel c x y r).drawOwner = f.drawOwner := rfl
@[simp] theorem writePixel_uploadOwner (f : FrameBuf) (c : Cfg) (x y : Nat) (r : Role) :
    (f.writePixel c x y r).uploadOwner = f.uploadOwner := rfl

end Sys2Proof.Laws
end

