-- ==== Sys2Proof/Laws/Micro.lean ====
section
/-! SUPPORT. Everything a micro-step, and each framebuffer request of one step, does when it answers a next state; the later
proofs cite these and never unfold a micro-step. -/

namespace Sys2Proof.Laws

open Sys2Proof.Machine

/-- Everything a micro-step that answers a next state does. -/
def MicroNext (m : Micro) (s t : State) : Prop :=
  match m with
  | .acquire =>
    (s.busOwner = none ∧ t = { s with
      busOwner := some s.cur, trace := s.trace ++ [.lock s.cur .acq],
      ports := s.portsWithSeq { s.seq with pc := s.seq.pc + 1, sent := 0, ok := true } }) ∨
    (s.busOwner ≠ none ∧ t = s)
  | .release => s.busOwner = some s.cur ∧ t = { s with
      busOwner := none, trace := s.trace ++ [.lock s.cur .rel],
      ports := s.portsWithSeq { s.seq with pc := s.seq.pc + 1 } }
  | .releaseCmd => s.busOwner = some s.cur ∧ t = { s with
      busOwner := none, trace := s.trace ++ [.lock s.cur .rel],
      ports := s.portsWithSeq { s.seq with pc := s.seq.pc + (if s.seq.ok then 2 else 1) } }
  | .pin p lvl => t = { s with
      pins := s.pins.drive p lvl, trace := s.trace ++ [.pin p lvl],
      ports := s.portsWithSeq { s.seq with pc := s.seq.pc + 1 } }
  | .delay d => t = { s with
      trace := s.trace ++ [.delay d], ports := s.portsWithSeq { s.seq with pc := s.seq.pc + 1 } }
  | .sampleBusy => ∃ b e, e.sched = s.env.sched ∧ e.xferIn = s.env.xferIn ∧ t = { s with
      env := e, trace := s.trace ++ [.busy b],
      ports := s.portsWithSeq { s.seq with pc := s.seq.pc + (if b = s.cfg.busyReady then 2 else 1) } }
  | .pollDelay => t = { s with
      trace := s.trace ++ [.delay .poll], ports := s.portsWithSeq { s.seq with pc := s.seq.pc - 1 } }
  | .xferOp op skip => ∃ n ok e, n ≤ 1 ∧ e.sched = s.env.sched ∧ e.busyIn = s.env.busyIn ∧ t = { s with
      env := e, trace := s.trace ++ [.xfer s.cur [op] n ok],
      ports := s.portsWithSeq { s.seq with
        pc := s.seq.pc + (if ok && decide (n = 1) then 1 else 1 + skip), sent := n, ok := ok && decide (n = 1) } }
  | .xferChunk src k skip => ∃ n ok e,
      n ≤ (payloadChunk s.cfg s.fb src k).length ∧ e.sched = s.env.sched ∧ e.busyIn = s.env.busyIn ∧ t = { s with
      env := e, trace := s.trace ++ [.xfer s.cur (payloadChunk s.cfg s.fb src k) n ok],
      ports := s.portsWithSeq { s.seq with
        pc := s.seq.pc + (if ok && decide (n = (payloadChunk s.cfg s.fb src k).length) then 1 else 1 + skip),
        sent := s.seq.sent + n, ok := ok && decide (n = (payloadChunk s.cfg s.fb src k).length) } }
  | .logXfer what => t = { s with
      err := s.err.logged what s.seq.sent, trace := s.trace ++ [.log s.cur what s.seq.sent],
      ports := s.portsWithSeq { s.seq with pc := s.seq.pc + 1, xf := true } }
  | .entry k =>
    (s.fsmOwner = none ∧ allowedFrom k s.dstate = true ∧ t = { s with
      fsmOwner := some s.cur, dstate := entryState k s.dstate,
      ports := s.portsWithSeq { s.seq with pc := s.seq.pc + 1 } }) ∨
    (s.fsmOwner = none ∧ allowedFrom k s.dstate = false ∧ t = { s with
      fsmOwner := some s.cur, seqErr := true,
      ports := s.portsWithSeq { s.seq with pc := s.seq.pc + 1, sq := true } }) ∨
    (s.fsmOwner ≠ none ∧ t = s)
  | .exit k => s.fsmOwner = some s.cur ∧ t = { s with
      fsmOwner := none, dstate := if s.seq.sq then s.dstate else endState k, ports := s.portsWithSeq Seq.idle,
      trace := s.trace ++ [.resp s.cur { code := .ok, xf := s.seq.xf, sq := s.seq.sq, data := .empty }] }
  | .startRefresh => t = { s with
      dstate := if s.seq.sq then s.dstate else .refreshing,
      ports := s.portsWithSeq { s.seq with pc := s.seq.pc + 1 } }
  | .openWindow => t = { s with
      fb := { s.fb with race := s.fb.race || decide (s.fb.drawOwner ≠ none), uploadOwner := some s.cur },
      ports := s.portsWithSeq { s.seq with pc := s.seq.pc + 1 } }
  | .closeWindow => t = { s with
      fb := { s.fb with uploadOwner := none }, ports := s.portsWithSeq { s.seq with pc := s.seq.pc + 1 } }
  | .respondSent => t = { s with
      ports := s.portsWithSeq Seq.idle,
      trace := s.trace ++
        [.resp s.cur { code := .ok, xf := !s.seq.ok, sq := false, data := .sent (sentWord s.seq.sent) }] }
  | .ret => t = { s with ports := s.portsWithSeq Seq.idle }
  | .drawStart src => t = { s with
      fb := { s.fb with
        race := s.fb.race || (decide (s.fb.drawOwner ≠ none) || decide (s.fb.uploadOwner ≠ none)),
        drawOwner := some s.cur },
      ports := s.ports.set s.cur { s.port with
        seq := { s.seq with pc := s.seq.pc + 1 },
        bind := if exactPalette src then bindRoles s.roleRgb src.pal s.port.bind else s.port.bind } }
  | .drawPixel src k =>
    let x := k % s.cfg.width
    let y := k / s.cfg.width
    (∃ role, encodePixel s.roleRgb s.port.bind src x y = some role ∧ t = { s with
      fb := s.fb.writePixel s.cfg x y role, ports := s.portsWithSeq { s.seq with pc := s.seq.pc + 1 } }) ∨
    (encodePixel s.roleRgb s.port.bind src x y = none ∧ t = { s with
      fault := s.fault.or (some .srcIndex), ports := s.portsWithSeq { s.seq with op := .stopped } })
  | .drawEnd => t = { s with
      fb := { s.fb with drawOwner := none }, ports := s.portsWithSeq Seq.idle,
      trace := s.trace ++ [.resp s.cur { code := .ok, xf := false, sq := false, data := .empty }] }

theorem drawXfer_env (s : State) :
    s.drawXfer.2.env.sched = s.env.sched ∧ s.drawXfer.2.env.busyIn = s.env.busyIn := by
  unfold State.drawXfer; split <;> exact ⟨rfl, rfl⟩

theorem drawBusy_env (s : State) :
    s.drawBusy.2.env.sched = s.env.sched ∧ s.drawBusy.2.env.xferIn = s.env.xferIn := by
  unfold State.drawBusy; split <;> exact ⟨rfl, rfl⟩

theorem runMicro_next (m : Micro) (s t : State) (h : runMicro m s = .next t) : MicroNext m s t := by
  cases m with
  | acquire =>
    simp only [runMicro, microAcquire] at h
    split at h
    · cases h; exact .inl ⟨‹_›, rfl⟩
    · cases h; exact .inr ⟨by simp [*], rfl⟩
  | release =>
    simp only [runMicro, microRelease, releaseBus] at h
    split at h <;> cases h
    exact ⟨‹_›, rfl⟩
  | releaseCmd =>
    simp only [runMicro, microReleaseCmd, releaseBus] at h
    split at h <;> cases h
    exact ⟨‹_›, rfl⟩
  | sampleBusy =>
    simp only [runMicro, microSampleBusy] at h
    cases h
    refine ⟨s.drawBusy.1, s.drawBusy.2.env, (drawBusy_env s).1, (drawBusy_env s).2, ?_⟩
    rw [drawBusy_snd]; rfl
  | xferOp op skip =>
    simp only [runMicro, microXferOp] at h
    cases h
    refine ⟨(s.xfer [op]).1.1, (s.xfer [op]).1.2, s.drawXfer.2.env, (xfer_spec s [op]).1, (drawXfer_env s).1,
      (drawXfer_env s).2, ?_⟩
    rw [(xfer_spec s [op]).2]; rfl
  | xferChunk src k skip =>
    simp only [runMicro, microXferChunk] at h
    cases h
    have hx := xfer_spec s (payloadChunk s.cfg s.fb src k)
    refine ⟨_, (s.xfer (payloadChunk s.cfg s.fb src k)).1.2, s.drawXfer.2.env, hx.1, (drawXfer_env s).1, (drawXfer_env s).2, ?_⟩
    rw [hx.2]; rfl
  | entry k =>
    simp only [runMicro, protocolEntry] at h
    split at h
    · cases h; exact .inr (.inr ⟨by simp [*], rfl⟩)
    · rename_i hf
      split at h <;> rename_i ha <;> cases h
      · exact .inl ⟨hf, ha, rfl⟩
      · exact .inr (.inl ⟨hf, by simpa using ha, rfl⟩)
  | exit k =>
    simp only [runMicro, protocolExit] at h
    split at h <;> cases h
    exact ⟨‹_›, rfl⟩
  | drawPixel src k =>
    simp only [runMicro, drawPixel] at h
    split at h <;> cases h
    · exact .inl ⟨_, ‹_›, rfl⟩
    · exact .inr ⟨‹_›, rfl⟩
  | pin _ _ | delay _ | pollDelay | logXfer _ | startRefresh | openWindow | closeWindow | respondSent | ret | drawStart _
  | drawEnd => cases h; rfl

/-- The race check of a framebuffer write. -/
theorem raceOnWrite_eq (f : FrameBuf) (p : Nat) : raceOnWrite f p =
    { f with race := f.race || decide (f.drawOwner ≠ none ∨ (f.uploadOwner ≠ none ∧ f.uploadOwner ≠ some p)) } := by
  simp only [raceOnWrite, FrameBuf.flagIf, freeFor]
  congr 2
  by_cases h : f.drawOwner = none <;> by_cases h' : f.uploadOwner = none <;> by_cases h'' : f.uploadOwner = some p <;>
    simp [h, h', h'']

/-- The race check of a framebuffer read. -/
theorem raceOnRead_eq (f : FrameBuf) (p : Nat) : raceOnRead f p =
    { f with race := f.race || decide (f.drawOwner ≠ none ∧ f.drawOwner ≠ some p) } := by
  simp only [raceOnRead, FrameBuf.flagIf, freeFor]
  congr 2
  by_cases h : f.drawOwner = none <;> by_cases h' : f.drawOwner = some p <;> simp [h, h']

/-- FB_SET. -/
theorem execFbSet_eq (x y : BitVec 12) (role : Role) (s : State) : execFbSet x y role s = .next { s with
    fb := if inBounds s.cfg x.toNat y.toNat then (raceOnWrite s.fb s.cur).writePixel s.cfg x.toNat y.toNat role else s.fb,
    ports := s.portsWithSeq Seq.idle,
    trace := s.trace ++ [.resp s.cur { code := .ok, xf := false, sq := false, data := .empty }] } := by
  unfold execFbSet
  by_cases h : inBounds s.cfg x.toNat y.toNat = true
  · rw [if_pos h, if_pos h]; rfl
  · rw [if_neg h, if_neg h]; rfl

/-- FB_GET. -/
theorem execFbGet_next (x y : BitVec 12) (s t : State) (h : execFbGet x y s = .next t) :
    (inBounds s.cfg x.toNat y.toNat = true ∧ ∃ r, roleOfPair (s.fb.pixelPair s.cfg x.toNat y.toNat) = some r ∧
      t = { s with
        fb := raceOnRead s.fb s.cur, ports := s.portsWithSeq Seq.idle,
        trace := s.trace ++ [.resp s.cur { code := .ok, xf := false, sq := false, data := .role r }] }) ∨
    (inBounds s.cfg x.toNat y.toNat = true ∧ roleOfPair (s.fb.pixelPair s.cfg x.toNat y.toNat) = none ∧
      t = { s with
        fb := raceOnRead s.fb s.cur, fault := s.fault.or (some .invalidPixel),
        ports := s.portsWithSeq { s.seq with op := .stopped } }) ∨
    (inBounds s.cfg x.toNat y.toNat = false ∧ ∃ d, t = { s with
      env := { s.env with draws := s.env.draws + 1 }, ports := s.portsWithSeq Seq.idle,
      trace := s.trace ++ [.resp s.cur { code := .oob, xf := false, sq := false, data := .role d }] }) := by
  unfold execFbGet at h
  split at h <;> rename_i hb
  · split at h <;> rename_i hr <;> cases h
    · exact .inl ⟨hb, _, hr, rfl⟩
    · exact .inr (.inl ⟨hb, hr, rfl⟩)
  · cases h
    exact .inr (.inr ⟨by simpa using hb, _, rfl⟩)

/-- FB_CLEAR. -/
theorem execFbClear_eq (s : State) : execFbClear s = .next { s with
    fb := (raceOnWrite s.fb s.cur).cleared, ports := s.portsWithSeq Seq.idle,
    trace := s.trace ++ [.resp s.cur { code := .ok, xf := false, sq := false, data := .empty }] } := rfl

end Sys2Proof.Laws
end

