-- ==== Sys2Proof/Laws/PerInstr.lean ====
section
/-! SUPPORT. Per-instruction laws: decoding the encoding of a well-formed instruction gives it back (family
`RoundTrip`), from the fields of an encoded request word. -/

namespace Sys2Proof.Laws

/-! ## Fields of an encoded request word (30_encoding.md R91) -/

theorem opField_requestWord (op : BitVec 4) (r : BitVec 2) (x y : BitVec 12) : opField (requestWord op r x y) = op := by
  ext i hi
  simp only [opField, requestWord, BitVec.getElem_extractLsb', BitVec.getLsbD_append]
  rw [if_neg (by omega), if_neg (by omega), if_neg (by omega), if_neg (by omega)]
  rw [show 28 + i - 12 - 12 - 2 - 2 = i by omega, BitVec.getLsbD_eq_getElem]

theorem rsvField_requestWord (op : BitVec 4) (r : BitVec 2) (x y : BitVec 12) : rsvField (requestWord op r x y) = 0 := by
  ext i hi
  simp only [rsvField, requestWord, BitVec.getElem_extractLsb', BitVec.getLsbD_append]
  rw [if_neg (by omega), if_neg (by omega), if_neg (by omega), if_pos (by omega)]
  simp

theorem roleField_requestWord (op : BitVec 4) (r : BitVec 2) (x y : BitVec 12) : roleField (requestWord op r x y) = r := by
  ext i hi
  simp only [roleField, requestWord, BitVec.getElem_extractLsb', BitVec.getLsbD_append]
  rw [if_neg (by omega), if_neg (by omega), if_pos (by omega)]
  rw [show 24 + i - 12 - 12 = i by omega, BitVec.getLsbD_eq_getElem]

theorem xField_requestWord (op : BitVec 4) (r : BitVec 2) (x y : BitVec 12) : xField (requestWord op r x y) = x := by
  ext i hi
  simp only [xField, requestWord, BitVec.getElem_extractLsb', BitVec.getLsbD_append]
  rw [if_neg (by omega), if_pos (by omega)]
  rw [show 12 + i - 12 = i by omega, BitVec.getLsbD_eq_getElem]

theorem yField_requestWord (op : BitVec 4) (r : BitVec 2) (x y : BitVec 12) : yField (requestWord op r x y) = y := by
  ext i hi
  simp only [yField, requestWord, BitVec.getElem_extractLsb', BitVec.getLsbD_append]
  rw [if_pos (by omega)]
  rw [show 0 + i = i by omega, BitVec.getLsbD_eq_getElem]

theorem opField_plainWord (op : BitVec 4) : opField (plainWord op) = op := by
  ext i hi
  simp only [opField, plainWord, BitVec.getElem_extractLsb', BitVec.getLsbD_append]
  rw [if_neg (by omega)]
  rw [show 28 + i - 28 = i by omega, BitVec.getLsbD_eq_getElem]

theorem lowField_plainWord (op : BitVec 4) : lowField (plainWord op) = 0 := by
  ext i hi
  simp only [lowField, plainWord, BitVec.getElem_extractLsb', BitVec.getLsbD_append]
  rw [if_pos (by omega)]
  simp

theorem opField_chCmd (b : Byte) : opField ((0xC : BitVec 4) ++ (0 : BitVec 20) ++ b) = 0xC := by
  ext i hi
  simp only [opField, BitVec.getElem_extractLsb', BitVec.getLsbD_append]
  rw [if_neg (by omega), if_neg (by omega)]
  rw [show 28 + i - 8 - 20 = i by omega, BitVec.getLsbD_eq_getElem]

theorem midField_chCmd (b : Byte) : midField ((0xC : BitVec 4) ++ (0 : BitVec 20) ++ b) = 0 := by
  ext i hi
  simp only [midField, BitVec.getElem_extractLsb', BitVec.getLsbD_append]
  rw [if_neg (by omega), if_pos (by omega)]
  simp

theorem opcodeField_chCmd (b : Byte) : opcodeField ((0xC : BitVec 4) ++ (0 : BitVec 20) ++ b) = b := by
  ext i hi
  simp only [opcodeField, BitVec.getElem_extractLsb', BitVec.getLsbD_append]
  rw [if_pos (by omega)]
  rw [show 0 + i = i by omega, BitVec.getLsbD_eq_getElem]

/-- The code of a role names that role (30_encoding.md R96). -/
theorem roleOfCode_code (r : Role) : roleOfCode r.code = some r := by cases r <;> rfl

/-- An encoded operation with no field and no block decodes to that operation. -/
theorem decodePlain_plainWord (op : BitVec 4) (i : Instr) : decodePlain (plainWord op) [] i = .ok i := by
  simp [decodePlain, lowField_plainWord]

/-- The decoder gives back what the encoder wrote. -/
def RoundTrip.Statement (i : Instr) : Prop := i.wf = true → decode (encode i) = .ok i

theorem RoundTrip.init : RoundTrip.Statement .init := by
  intro _
  simp [decode, encode, decodeRequest, opField_plainWord, decodePlain_plainWord]

theorem RoundTrip.display (b h : List Byte) : RoundTrip.Statement (.display b h) := by
  intro _
  simp [decode, encode, decodeRequest, opField_plainWord, decodeDisplay, lowField_plainWord]

theorem RoundTrip.displayFb : RoundTrip.Statement .displayFb := by
  intro _
  simp [decode, encode, decodeRequest, opField_plainWord, decodePlain_plainWord]

theorem RoundTrip.clear : RoundTrip.Statement .clear := by
  intro _
  simp [decode, encode, decodeRequest, opField_plainWord, decodePlain_plainWord]

theorem RoundTrip.sleep : RoundTrip.Statement .sleep := by
  intro _
  simp [decode, encode, decodeRequest, opField_plainWord, decodePlain_plainWord]

theorem RoundTrip.status : RoundTrip.Statement .status := by
  intro _
  simp [decode, encode, decodeRequest, opField_plainWord, decodePlain_plainWord]

theorem RoundTrip.fbSet (x y : BitVec 12) (role : Role) : RoundTrip.Statement (.fbSet x y role) := by
  intro _
  simp [decode, encode, decodeRequest, opField_requestWord, decodeFbSet, rsvField_requestWord, roleField_requestWord,
    roleOfCode_code, xField_requestWord, yField_requestWord]

theorem RoundTrip.fbGet (x y : BitVec 12) : RoundTrip.Statement (.fbGet x y) := by
  intro _
  simp [decode, encode, decodeRequest, opField_requestWord, decodeFbGet, rsvField_requestWord, roleField_requestWord,
    xField_requestWord, yField_requestWord]

theorem RoundTrip.fbClear : RoundTrip.Statement .fbClear := by
  intro _
  simp [decode, encode, decodeRequest, opField_plainWord, decodePlain_plainWord]

theorem RoundTrip.fbDraw (src : Source) : RoundTrip.Statement (.fbDraw src) := by
  intro h
  have h : src.wf = true := h
  simp [decode, encode, decodeRequest, opField_plainWord, decodeFbDraw, lowField_plainWord, h]

theorem RoundTrip.chCmd (opcode : Byte) (payload : List Byte) : RoundTrip.Statement (.chCmd opcode payload) := by
  intro _
  simp only [decode, encode, decodeRequest, opField_chCmd, decodeChCmd, midField_chCmd, opcodeField_chCmd]
  simp

theorem RoundTrip.chData (payload : List Byte) : RoundTrip.Statement (.chData payload) := by
  intro _
  simp [decode, encode, decodeRequest, opField_plainWord, decodeChData, lowField_plainWord]

theorem RoundTrip.wSwreset : RoundTrip.Statement .wSwreset := fun _ => rfl

theorem RoundTrip.wAutowriteHl (payload : List Byte) : RoundTrip.Statement (.wAutowriteHl payload) := fun _ => rfl

theorem RoundTrip.wAutowriteBw (payload : List Byte) : RoundTrip.Statement (.wAutowriteBw payload) := fun _ => rfl

theorem RoundTrip.wSoftstart (payload : List Byte) : RoundTrip.Statement (.wSoftstart payload) := fun _ => rfl

theorem RoundTrip.wGate (payload : List Byte) : RoundTrip.Statement (.wGate payload) := fun _ => rfl

theorem RoundTrip.wDataEntry (payload : List Byte) : RoundTrip.Statement (.wDataEntry payload) := fun _ => rfl

theorem RoundTrip.wRamxWindow (payload : List Byte) : RoundTrip.Statement (.wRamxWindow payload) := fun _ => rfl

theorem RoundTrip.wRamyWindow (payload : List Byte) : RoundTrip.Statement (.wRamyWindow payload) := fun _ => rfl

theorem RoundTrip.wBorder (payload : List Byte) : RoundTrip.Statement (.wBorder payload) := fun _ => rfl

theorem RoundTrip.wTempSensor (payload : List Byte) : RoundTrip.Statement (.wTempSensor payload) := fun _ => rfl

theorem RoundTrip.wUpdateCtrl2 (payload : List Byte) : RoundTrip.Statement (.wUpdateCtrl2 payload) := fun _ => rfl

theorem RoundTrip.wMasterAct : RoundTrip.Statement .wMasterAct := fun _ => rfl

theorem RoundTrip.wWriteBw (src : Payload) : RoundTrip.Statement (.wWriteBw src) := by
  intro h
  cases src with
  | bytes s => rfl
  | plane p =>
    cases p with
    | black => rfl
    | hl => simp [Instr.wf] at h

theorem RoundTrip.wWriteHl (src : Payload) : RoundTrip.Statement (.wWriteHl src) := by
  intro h
  cases src with
  | bytes s => rfl
  | plane p =>
    cases p with
    | black => simp [Instr.wf] at h
    | hl => rfl

theorem RoundTrip.wRamxCounter (payload : List Byte) : RoundTrip.Statement (.wRamxCounter payload) := fun _ => rfl

theorem RoundTrip.wRamyCounter (payload : List Byte) : RoundTrip.Statement (.wRamyCounter payload) := fun _ => rfl

theorem RoundTrip.wDeepSleep : RoundTrip.Statement .wDeepSleep := fun _ => rfl

end Sys2Proof.Laws
end

