-- ==== Sys2Proof/Tests/Slice0.lean ====
section
/-! SUPPORT. The model's own tests: ill-formed terms, words written out from the spec's encoding tables, single steps with
results from spec/95_test_vectors.md, and a witness for the hypotheses of every statement. -/

namespace Sys2Proof.Tests

open Sys2Proof.Machine

/-! ## Helpers -/

/-- The configuration of 95_test_vectors.md section 1: 16x2 pixels, `L = 4`, one port. The payloads are any. -/
def cfg : Cfg where
  width        := 16
  height       := 2
  xferLimit    := 4
  nPorts       := 1
  accent       := { r := 255, g := 0, b := 0 }
  busyReady    := true
  tRstH1       := 200000
  tRstL        := 2000
  tRstH2       := 200000
  tPoll        := 10000
  tSettle      := 10000
  tAct         := 200
  pAutowriteHl := [0xA1]
  pAutowriteBw := [0xA2]
  pSoftstart   := [1, 2, 3, 4, 5]
  pGate        := [0xA3]
  pDataEntry   := [0xA4]
  pRamxWindow  := [0xA5]
  pRamyWindow  := [0xA6]
  pBorder      := [0xA7]
  pTempSensor  := [0xA8]
  pLoadMode    := [0xA9]
  pRamxOrigin  := []
  pRamyOrigin  := [0xAA]
  pRefreshMode := 0xAB

/-- The same with 10x1 pixels, so that each row has six pad bits (V-FB-10). -/
def oddCfg : Cfg := { cfg with width := 10, height := 1 }

/-- The smallest panel, for whole draws. -/
def dotCfg : Cfg := { cfg with width := 1, height := 1 }

/-- Block reset of the test configuration. -/
def st : State := State.ofCfg cfg

/-- Port 0 has instruction `i` in progress at `pc`. -/
def seqOf (i : Instr) (pc : Nat) : Seq := { op := .busy i, pc := pc, xf := false, sq := false, sent := 0, ok := true }

/-- The state `s` with port 0 standing at `pc` of instruction `i`. -/
def standing (s : State) (i : Instr) (pc : Nat) : State := s.setSeq (seqOf i pc)

/-- The state `s` with its next transfer answers and busy samples fixed. -/
def fixed (s : State) (x : List (Nat × Bool)) (b : List Level) : State :=
  { s with env := { s.env with xferIn := x, busyIn := b } }

/-- `n` transfers that succeed. -/
def good (n : Nat) : List (Nat × Bool) := List.replicate n (4, true)

/-- The outcome is a next state with the property `f`. -/
def nextSat (o : Out) (f : State → Bool) : Bool :=
  match o with
  | .next t => f t
  | .fault _ => false
  | .refused _ => false

/-- The outcome is the next state `t`. -/
def nextIs (o : Out) (t : State) : Bool := nextSat o fun u => decide (u = t)

/-- `nextIs` says what it is meant to say. -/
theorem nextIs_iff (o : Out) (t : State) : nextIs o t = true ↔ o = .next t := by
  cases o <;> simp [nextIs, nextSat]

/-- The last event of the trace. -/
def lastEvent (s : State) : Option Event := s.trace.getLast?

/-- The bytes of both planes at the first addresses. -/
def planesOf (s : State) : List Byte × List Byte :=
  ((List.range 4).map (s.fb.readByte .black), (List.range 4).map (s.fb.readByte .hl))

/-- The answer of a request that went well. -/
def okAnswer (d : RespData) : Option Event := some (.resp 0 { code := .ok, xf := false, sq := false, data := d })

def white : RGB := { r := 255, g := 255, b := 255 }
def black : RGB := { r := 0, g := 0, b := 0 }
def red : RGB := { r := 255, g := 0, b := 0 }

/-- A source of one pixel with the exact palette of V-FB-15. -/
def dotSource (i : Nat) : Source := { pal := [white, black, red], x0 := 0, y0 := 0, x1 := 1, y1 := 1, idx := [i], rgb := [] }

/-! ## Ill-formed terms are refused (30_encoding.md R98, 41_protocol.md R182, R183) -/

theorem test_wf_rect_x : (Instr.fbDraw { pal := [], x0 := 5, y0 := 0, x1 := 3, y1 := 2, idx := [], rgb := [] }).wf = false := by
  decide
theorem test_wf_rect_y : (Instr.fbDraw { pal := [], x0 := 0, y0 := 2, x1 := 0, y1 := 1, idx := [], rgb := [] }).wf = false := by
  decide
theorem test_wf_index_count :
    (Instr.fbDraw { pal := [black], x0 := 0, y0 := 0, x1 := 2, y1 := 1, idx := [0], rgb := [] }).wf = false := by decide
theorem test_wf_index_and_colours :
    (Instr.fbDraw { pal := [black], x0 := 0, y0 := 0, x1 := 1, y1 := 1, idx := [0], rgb := [red] }).wf = false := by decide
theorem test_wf_colour_count :
    (Instr.fbDraw { pal := [], x0 := 0, y0 := 0, x1 := 2, y1 := 1, idx := [], rgb := [red] }).wf = false := by decide
theorem test_wf_colours_and_index :
    (Instr.fbDraw { pal := [], x0 := 0, y0 := 0, x1 := 1, y1 := 1, idx := [0], rgb := [red] }).wf = false := by decide
theorem test_wf_bw_plane : (Instr.wWriteBw (.plane .hl)).wf = false := by decide
theorem test_wf_hl_plane : (Instr.wWriteHl (.plane .black)).wf = false := by decide

/-- Every malformed descriptor above, and a plane of the wrong command, is refused by the decoder by name. -/
theorem test_decode_refuses_ill_formed :
    (∀ src : Source, src.wf = false → decode (.request 0xB0000000 [.src src]) = .error .badSource) ∧
    decode (.wire 0x24 (.plane .hl)) = .error .badPayload ∧ decode (.wire 0x26 (.plane .black)) = .error .badPayload := by
  refine ⟨fun src h => ?_, by decide, by decide⟩
  have key : ∀ w : Word, (opField w).toNat = 0xB → lowField w = 0 → decode (.request w [.src src]) = .error .badSource := by
    intro w hop hlow
    simp only [decode, decodeRequest]
    rw [hop]
    simp [decodeFbDraw, hlow, h]
  exact key _ (by decide) (by decide)

/-! ## Decoding: 95_test_vectors.md section 3.1 and 30_encoding.md R91, R94, R101, bit by bit -/

/-- OP in bits 31 to 28, everything else 0. -/
theorem test_decode_plain_requests :
    decode (.request 0b0001_00_00_000000000000_000000000000 []) = .ok .init ∧
    decode (.request 0b0010_00_00_000000000000_000000000000 [.b [7], .h [8, 9]]) = .ok (.display [7] [8, 9]) ∧
    decode (.request 0b0011_00_00_000000000000_000000000000 []) = .ok .displayFb ∧
    decode (.request 0b0100_00_00_000000000000_000000000000 []) = .ok .clear ∧
    decode (.request 0b0101_00_00_000000000000_000000000000 []) = .ok .sleep ∧
    decode (.request 0b0110_00_00_000000000000_000000000000 []) = .ok .status ∧
    decode (.request 0b1010_00_00_000000000000_000000000000 []) = .ok .fbClear ∧
    decode (.request 0b1011_00_00_000000000000_000000000000 [.src (dotSource 2)]) = .ok (.fbDraw (dotSource 2)) ∧
    decode (.request 0b1101_00_00_000000000000_000000000000 [.payload [1]]) = .ok (.chData [1]) := by decide

/-- V-EN 7 to 12, 15 and 16: ROLE in bits 25 and 24, X in 23 to 12, Y in 11 to 0, OPCODE in 7 to 0. -/
theorem test_decode_fields :
    decode (.request 0b1000_00_10_000000000111_000000000000 []) = .ok (.fbSet 7 0 .highlight) ∧
    decode (.request 0b1000_00_01_000000000000_000000000000 []) = .ok (.fbSet 0 0 .black) ∧
    decode (.request 0b1000_00_10_000000001111_000000000001 []) = .ok (.fbSet 15 1 .highlight) ∧
    decode (.request 0b1000_00_00_111111111111_111111111111 []) = .ok (.fbSet 4095 4095 .white) ∧
    decode (.request 0b1001_00_00_000000000111_000000000000 []) = .ok (.fbGet 7 0) ∧
    decode (.request 0b1100_00000000000000000000_00010010 [.payload []]) = .ok (.chCmd 0x12 []) ∧
    decode (.request 0b1100_00000000000000000000_11111111 [.payload [3]]) = .ok (.chCmd 0xFF [3]) := by decide

/-- V-EN 18 to 26 and V-ER-6. -/
theorem test_decode_illegal :
    decode (.request 0x00000000 []) = .error .reservedOp ∧ decode (.request 0x70000000 []) = .error .reservedOp ∧
    decode (.request 0xE0000000 []) = .error .reservedOp ∧ decode (.request 0xF0000000 []) = .error .reservedOp ∧
    decode (.request 0x83000000 []) = .error .reservedRole ∧ decode (.request 0x84000000 []) = .error .nonzeroField ∧
    decode (.request 0x91000000 []) = .error .nonzeroField ∧ decode (.request 0x10000001 []) = .error .nonzeroField ∧
    decode (.request 0xC0000112 [.payload []]) = .error .nonzeroField ∧
    decode (.request 0x20000000 [.b []]) = .error .badBlocks ∧
    decode (.request 0x20000001 [.b [0, 0, 0, 0, 0], .h []]) = .error .nonzeroField ∧
    decode (.request 0x91010000 []) = .error .nonzeroField := by decide

/-- The opcodes of R101, and one the block never emits (R102). -/
theorem test_decode_wire :
    decode (.wire 0b0001_0010 (.bytes [])) = .ok .wSwreset ∧
    decode (.wire 0b0100_0110 (.bytes [1])) = .ok (.wAutowriteHl [1]) ∧
    decode (.wire 0b0100_0111 (.bytes [1])) = .ok (.wAutowriteBw [1]) ∧
    decode (.wire 0b0000_1100 (.bytes [1])) = .ok (.wSoftstart [1]) ∧
    decode (.wire 0b0000_0001 (.bytes [1])) = .ok (.wGate [1]) ∧
    decode (.wire 0b0001_0001 (.bytes [1])) = .ok (.wDataEntry [1]) ∧
    decode (.wire 0b0100_0100 (.bytes [1])) = .ok (.wRamxWindow [1]) ∧
    decode (.wire 0b0100_0101 (.bytes [1])) = .ok (.wRamyWindow [1]) ∧
    decode (.wire 0b0011_1100 (.bytes [1])) = .ok (.wBorder [1]) ∧
    decode (.wire 0b0001_1000 (.bytes [1])) = .ok (.wTempSensor [1]) ∧
    decode (.wire 0b0010_0010 (.bytes [1])) = .ok (.wUpdateCtrl2 [1]) ∧
    decode (.wire 0b0010_0000 (.bytes [])) = .ok .wMasterAct ∧
    decode (.wire 0b0010_0100 (.plane .black)) = .ok (.wWriteBw (.plane .black)) ∧
    decode (.wire 0b0010_0110 (.bytes [1])) = .ok (.wWriteHl (.bytes [1])) ∧
    decode (.wire 0b0100_1110 (.bytes [1])) = .ok (.wRamxCounter [1]) ∧
    decode (.wire 0b0100_1111 (.bytes [1])) = .ok (.wRamyCounter [1]) ∧
    decode (.wire 0b0001_0000 (.bytes [0x01])) = .ok .wDeepSleep ∧
    decode (.wire 0x12 (.bytes [1])) = .error .badPayload ∧ decode (.wire 0x10 (.bytes [])) = .error .badPayload ∧
    decode (.wire 0x00 (.bytes [])) = .error .unlistedOpcode := by decide

/-! ## Reset and the fetch -/

/-- V-ER-1: STATUS is the first request after reset and answers three words of 0. -/
theorem test_reset_status :
    nextSat (step (st.withFetchWord 32 0x60000000)) (fun t => decide (lastEvent t = okAnswer (.status 0 0 0))) = true := by
  decide

/-- A wire command's word runs its first micro-step, the acquisition of the bus lock. -/
theorem test_fetch_wire :
    nextSat (step (st.withFetchWord 8 0x24)) (fun t => decide (t.trace = [.lock 0 .acq] ∧ t.busOwner = some 0)) = true := by
  decide

/-- An idle port with no request does nothing but be chosen. -/
theorem test_step_idle : nextIs (step { st with env := { st.env with sched := [0] } }) st = true := by decide

/-- R263: an illegal request's one step is its response. -/
theorem test_step_illegal :
    nextSat (step (st.withFetchWord 32 0x00000000))
      (fun t => decide (t.trace = [.resp 0 { code := .illegal, xf := false, sq := false, data := .empty }])) = true := by
  decide

/-! ## Single steps of the framebuffer requests (95_test_vectors.md sections 2, 3.5 to 3.7) -/

/-- V-FB-1. -/
theorem test_fbSet_highlight :
    nextSat (exec (.fbSet 3 1 .highlight) st)
      (fun t => decide (planesOf t = ([0xFF, 0xFF, 0xFF, 0xFF], [0, 0, 0x10, 0]) ∧ lastEvent t = okAnswer .empty)) = true := by
  decide

/-- V-FB-4 and, out of bounds, V-FB-5. -/
theorem test_fbSet_black :
    nextSat (exec (.fbSet 15 1 .black) st) (fun t => decide (planesOf t = ([0xFF, 0xFF, 0xFF, 0xFE], [0, 0, 0, 0]))) = true ∧
    nextSat (exec (.fbSet 0 2 .black) st)
      (fun t => decide (t.fb = st.fb ∧ lastEvent t = okAnswer .empty)) = true := by decide

/-- V-FB-10: the pad bits of an odd width stay. -/
theorem test_fbSet_odd_width :
    nextSat (exec (.fbSet 9 0 .black) (State.ofCfg oddCfg))
      (fun t => decide (t.fb.readByte .black 1 = 0xBF ∧ t.fb.readByte .hl 1 = 0)) = true := by decide

/-- The worked example of R232: BLACK 0xFF and HL 0x01 in byte 0. -/
theorem test_fbGet_highlight :
    nextSat (exec (.fbGet 7 0) { st with fb := { st.fb with hl := [(0, 0x01)] } })
      (fun t => decide (lastEvent t = okAnswer (.role .highlight))) = true := by decide

/-- V-FB-6: out of bounds the code is OOB, the role code any. -/
theorem test_fbGet_out_of_bounds :
    nextSat (exec (.fbGet 16 0) st)
      (fun t => match lastEvent t with
        | some (.resp 0 r) => decide (r.code = .oob ∧ r.xf = false ∧ r.sq = false)
        | _ => false) = true := by decide

/-- V-FB-9. -/
theorem test_fbClear :
    nextSat (exec .fbClear { st with fb := { st.fb with black := [(0, 0x7F)] } })
      (fun t => decide (planesOf t = ([0xFF, 0xFF, 0xFF, 0xFF], [0, 0, 0, 0]))) = true := by decide

/-- V-FB-15: the draw's start binds the roles. -/
theorem test_fbDraw_start :
    nextSat (exec (.fbDraw (dotSource 2)) (standing st (.fbDraw (dotSource 2)) 0))
      (fun t => decide (t.port.bind = { i0 := .white, i1 := .black, i2 := .highlight } ∧ t.fb.drawOwner = some 0)) = true := by
  decide

/-- V-FB-16's fault, at the first pixel. -/
theorem test_fbDraw_fault :
    nextSat (exec (.fbDraw (dotSource 5)) (standing st (.fbDraw (dotSource 5)) 1))
      (fun t => decide (t.fault = some .srcIndex ∧ t.seq.op = .stopped ∧ t.trace = [])) = true := by decide

/-- S5. -/
theorem test_bindRoles_desaturated_red :
    bindRoles (rolePalette cfg) [{ r := 255, g := 200, b := 200 }, white, black] Port.idle.bind =
      { i0 := .highlight, i1 := .white, i2 := .black } := by decide

/-- The corner cases of R214. -/
theorem test_classify_ties :
    classify (rolePalette cfg) { r := 255, g := 255, b := 0 } = .white ∧
    classify (rolePalette cfg) { r := 255, g := 128, b := 127 } = .white ∧
    classify (rolePalette cfg) { r := 255, g := 200, b := 200 } = .white := by decide

/-- V-ER-3: word 0 after V-CH-6. -/
theorem test_status_after_failure :
    nextSat (exec .status { st with err := { xferErr := true, cnt := 1, lastOp := 0x024, lastSent := 0 } })
      (fun t => decide (lastEvent t = okAnswer (.status 0x00002408 1 0))) = true := by decide

/-! ## Single steps of the channel and of the wire commands (sections 3.2, 41_protocol.md section 4) -/

/-- V-CH-6: a failed opcode transfer, then CS. -/
theorem test_chCmd_opcode_fails :
    nextSat (exec (.chCmd 0x24 [0, 0, 0, 0, 0]) (fixed (standing st (.chCmd 0x24 [0, 0, 0, 0, 0]) 3) [(0, false)] []))
      (fun t => decide (t.trace = [.xfer 0 [0x24] 0 false] ∧
        nextSat (exec (.chCmd 0x24 [0, 0, 0, 0, 0]) t) (fun u => decide (lastEvent u = some (.pin .cs true))) = true)) = true := by
  decide

/-- V-CH-9: the error count saturates. -/
theorem test_chCmd_log_saturates :
    nextSat (exec (.chCmd 0x24 []) { standing st (.chCmd 0x24 []) 7 with err := { st.err with cnt := 0xFFFFFFFF } })
      (fun t => decide (t.err = { xferErr := true, cnt := 0xFFFFFFFF, lastOp := 0x024, lastSent := 0 })) = true := by decide

/-- V-CH-3: the third chunk of nine bytes is one byte. -/
theorem test_chData_last_chunk :
    let i := Instr.chData [0xAA, 0xAA, 0xAA, 0xAA, 0xAA, 0xAA, 0xAA, 0xAA, 0xAB]
    nextSat (exec i (fixed (standing st i 5) [(4, true)] []))
      (fun t => decide (t.trace = [.xfer 0 [0xAB] 1 true])) = true := by decide

/-- V-CH-8: a full count with `ok = false` is a failure. -/
theorem test_chData_not_ok :
    nextSat (exec (.chData [1, 2]) (fixed (standing st (.chData [1, 2]) 3) [(2, false)] []))
      (fun t => decide (t.trace = [.xfer 0 [1, 2] 2 false] ∧ t.seq.ok = false ∧ t.seq.sent = 2)) = true := by decide

/-- The opcode a wire command's fourth line puts on the bus. -/
def sendsOpcode (i : Instr) (op : Byte) : Bool :=
  nextSat (exec i (fixed (standing st i 3) (good 1) [])) fun t => decide (t.trace = [.xfer 0 [op] 1 true])

/-- R170 to R186. -/
theorem test_wire_opcodes :
    sendsOpcode .wSwreset 0x12 = true ∧ sendsOpcode (.wAutowriteHl [1]) 0x46 = true ∧
    sendsOpcode (.wAutowriteBw [1]) 0x47 = true ∧ sendsOpcode (.wSoftstart [1]) 0x0C = true ∧
    sendsOpcode (.wGate [1]) 0x01 = true ∧ sendsOpcode (.wDataEntry [1]) 0x11 = true ∧
    sendsOpcode (.wRamxWindow [1]) 0x44 = true ∧ sendsOpcode (.wRamyWindow [1]) 0x45 = true ∧
    sendsOpcode (.wBorder [1]) 0x3C = true ∧ sendsOpcode (.wTempSensor [1]) 0x18 = true ∧
    sendsOpcode (.wUpdateCtrl2 [1]) 0x22 = true ∧ sendsOpcode .wMasterAct 0x20 = true ∧
    sendsOpcode (.wWriteBw (.plane .black)) 0x24 = true ∧ sendsOpcode (.wWriteHl (.plane .hl)) 0x26 = true ∧
    sendsOpcode (.wRamxCounter [1]) 0x4E = true ∧ sendsOpcode (.wRamyCounter [1]) 0x4F = true ∧
    sendsOpcode .wDeepSleep 0x10 = true := by decide

/-- R120: a plane's bytes are those at the transfer. -/
theorem test_wWriteBw_plane :
    nextSat (exec (.wWriteBw (.plane .black))
        (fixed (standing { st with fb := { st.fb with black := [(0, 0x7F)] } } (.wWriteBw (.plane .black)) 5) (good 1) []))
      (fun t => decide (t.trace = [.xfer 0 [0x7F, 0xFF, 0xFF, 0xFF] 4 true])) = true := by decide

/-- R186: the payload of 0x10 is 0x01. -/
theorem test_wDeepSleep_payload :
    nextSat (exec .wDeepSleep (fixed (standing st .wDeepSleep 5) (good 1) []))
      (fun t => decide (t.trace = [.xfer 0 [0x01] 1 true])) = true := by decide

/-! ## Single steps of the protocol requests (section 3.3) -/

/-- V-PR-5: INIT's entry from reset, and the first line of the pulse. -/
theorem test_init_entry :
    nextSat (exec .init (standing st .init 0)) (fun t => decide (t.dstate = .configuring ∧ t.fsmOwner = some 0 ∧ t.trace = [])) =
      true ∧
    nextSat (exec .init (standing st .init 4)) (fun t => decide (t.trace = [.pin .rst false] ∧ t.pins.rst = false)) = true := by
  decide

/-- V-PR-12: LEN comes at once while another port owns the FSM. -/
theorem test_display_len :
    nextSat (exec (.display [0, 0, 0, 0, 0] [])
        { standing st (.display [0, 0, 0, 0, 0] []) 0 with fsmOwner := some 1 })
      (fun t => decide (t.trace = [.resp 0 { code := .len, xf := false, sq := false, data := .empty }])) = true := by decide

/-- V-PR-6: the padded payloads of `B = [00]`, `H = [80, 01]`. -/
theorem test_display_padding :
    let i := Instr.display [0x00] [0x80, 0x01]
    nextSat (exec i (fixed (standing st i 15) (good 1) [])) (fun t => decide (t.trace = [.xfer 0 [0x00, 0xFF, 0xFF, 0xFF] 4 true])) =
      true ∧
    nextSat (exec i (fixed (standing st i 24) (good 1) [])) (fun t => decide (t.trace = [.xfer 0 [0x80, 0x01, 0x00, 0x00] 4 true])) =
      true := by decide

/-- P6: the upload window opens after the 0x4F command. -/
theorem test_displayFb_open :
    nextSat (exec .displayFb { standing st .displayFb 10 with fb := { st.fb with drawOwner := some 1 } })
      (fun t => decide (t.fb.uploadOwner = some 0 ∧ t.fb.race = true ∧ t.trace = [])) = true := by decide

/-- V-PR-7: CLEAR's 0x24 payload. -/
theorem test_clear_payload :
    nextSat (exec .clear (fixed (standing st .clear 15) (good 1) []))
      (fun t => decide (t.trace = [.xfer 0 [0xFF, 0xFF, 0xFF, 0xFF] 4 true])) = true := by decide

/-- V-ER-5: SLEEP from reset is out of sequence. -/
theorem test_sleep_entry :
    nextSat (exec .sleep (standing st .sleep 0))
      (fun t => decide (t.seqErr = true ∧ t.seq.sq = true ∧ t.dstate = .uninitialized)) = true := by decide

/-! ## Witnesses: for each statement, states and operands that meet its hypotheses, clause by clause -/

/-- INIT inside its reset pulse: port 0 holds both locks. -/
def pulsing : State :=
  { standing st .init 2 with
    busOwner := some 0, fsmOwner := some 0, dstate := .configuring, trace := [.lock 0 .acq],
    env := { st.env with sched := [0] } }

/-- A draw in progress on the odd panel, its black plane written. -/
def drawing : State :=
  { standing (State.ofCfg oddCfg) (.fbDraw (dotSource 1)) 1 with
    fb := { black := [(0, 0x7F)], hl := [], race := false, drawOwner := some 0, uploadOwner := none },
    env := { st.env with sched := [0] } }

/-- A state from which a whole request with no failure can run. -/
def able (i : Instr) : State := fixed (standing { st with dstate := .idle } i 0) (good 80) (List.replicate 8 true)

theorem test_witness_DecodeAndEncodeAgree :
    (Instr.fbDraw (dotSource 2)).wf = true ∧ (Instr.wWriteHl (.plane .hl)).wf = true ∧
    decode (.request 0x8236F20F []) = .ok (.fbSet 879 527 .highlight) := by decide

theorem test_witness_FieldsAreTheWordsBits :
    decode (.request 0x82FFFFFF []) = .ok (.fbSet 4095 4095 .highlight) ∧
    decode (.request 0x90FFFFFF []) = .ok (.fbGet 4095 4095) ∧
    decode (.request 0xC00000FF [.payload [1]]) = .ok (.chCmd 0xFF [1]) := by decide

theorem test_witness_CommandBytesAreWireFrame :
    cfg.legal = true ∧ ∃ b more, [((false : Level), (0x20 : Byte)), (true, 1)] = (false, b) :: more :=
  ⟨by decide, _, _, rfl⟩

theorem test_witness_ResetValues : State.construct cfg = some st ∧ 0 < cfg.nPorts ∧ cfg.planeSize - 1 < cfg.planeSize :=
  ⟨rfl, by decide, by decide⟩

/-- No port; a request in progress; a request accepted; no request; a stopped port. -/
theorem test_witness_StepRunsDecodedInstruction :
    let on (s : State) (p : Nat) : State := { s with env := { s.env with sched := [p] } }
    (on st 1).drawPort = (1, st) ∧ (on st 1).ports.length = 1 ∧
    (on (standing st .init 0) 0).drawPort.1 = 0 ∧ ((on (standing st .init 0) 0).portAt 0).seq.op = .busy .init ∧
    (let s := st.withFetchWord 32 0x60000000
     s.drawPort.1 = 0 ∧ (s.portAt 0).seq.op = .idle ∧ (s.portAt 0).inbox = [{ word := 0x60000000, blocks := [] }] ∧
       decode (.request 0x60000000 []) = .ok .status) ∧
    (on st 0).drawPort.1 = 0 ∧ (st.portAt 0).seq.op = .idle ∧ (st.portAt 0).inbox = [] ∧
    ((on (st.raiseFault .srcIndex) 0).portAt 0).seq.op = .stopped := by decide

theorem test_witness_IllegalRequestOnlyResponds :
    let s := st.withFetchWord 32 0x83000000
    s.drawPort.1 = 0 ∧ (s.portAt 0).seq.op = .idle ∧ (s.portAt 0).inbox = [{ word := 0x83000000, blocks := [] }] ∧
      decode (.request 0x83000000 []) = .error .reservedRole := by decide

theorem test_witness_InvariantsHoldAtReset : cfg.legal = true ∧ oddCfg.legal = true := by decide

theorem test_witness_StepKeepsInv : Inv pulsing ∧ ∃ t, step pulsing = .next t := by
  refine ⟨⟨by decide, by decide, by decide, ?_, ?_, by decide, by decide, ?_⟩, _, rfl⟩
  · intro p h; cases h; decide
  · intro p h; cases h; decide
  · intro p h
    obtain rfl : p = 0 := by
      have : pulsing.ports.length = 1 := rfl
      omega
    exact ⟨.pin .rst true, rfl, by decide, by decide, by decide, by decide, by decide⟩

theorem test_witness_StepKeepsPlaneInv : PlaneInv drawing ∧ ∃ t, step drawing = .next t := by
  refine ⟨⟨by decide, by decide, by decide, by decide, ?_, ?_⟩, _, rfl⟩
  · intro a; simp [drawing, FrameBuf.readByte, FrameBuf.cells, Memory.read, planeFill]
  · intro x y hy hx hx'
    have hy' : y < 1 := hy
    have hx1 : 10 ≤ x := hx
    have hx2 : x < 16 := hx'
    interval_cases y
    interval_cases x <;> decide

theorem test_witness_StepKeepsBusDiscipline : Inv pulsing ∧ TraceInv pulsing ∧ ∃ t, step pulsing = .next t :=
  ⟨test_witness_StepKeepsInv.1, by unfold TraceInv; decide, test_witness_StepKeepsInv.2⟩

/-- The premises, and a step that moves DSTATE: INIT's ENTRY from reset. -/
theorem test_witness_DstateFollowsTable :
    (Inv pulsing ∧ DstateInv pulsing ∧ ∃ t, step pulsing = .next t) ∧
    ∃ t, step (st.withFetchWord 32 0x10000000) = .next t ∧ t.dstate ≠ (st.withFetchWord 32 0x10000000).dstate := by
  refine ⟨⟨test_witness_StepKeepsInv.1, ?_, test_witness_StepKeepsInv.2⟩, _, rfl, by decide⟩
  intro p i hp hb _ _ _
  obtain rfl : p = 0 := by
    have : pulsing.ports.length = 1 := rfl
    omega
  cases hb
  unfold dstateAt
  rw [if_pos rfl]
  rfl

/-- A step, from a state with every sticky flag set (for the statements on `step s = .next t` alone). -/
theorem test_witness_steps :
    let s : State :=
      { pulsing with
        err := { xferErr := true, cnt := 0xFFFFFFFF, lastOp := 0x100, lastSent := 0 }, seqErr := true,
        fb := { st.fb with race := true }, fault := some .srcIndex }
    ∃ t, step s = .next t ∧ s.fault = some .srcIndex ∧ (1 : Nat) ≠ t.cur := ⟨_, rfl, rfl, by decide⟩

theorem test_witness_SeqErrOnlyAtEntry :
    ∃ t, exec .sleep (standing st .sleep 0) = .next t ∧ (standing st .sleep 0).seqErr = false ∧ t.seqErr = true :=
  ⟨_, rfl, rfl, rfl⟩

theorem test_witness_RefusalsHaveNoFlags :
    let s := st.withFetchWord 32 0x00000000
    ∃ t r, step s = .next t ∧ t.trace = s.trace ++ [.resp 0 r] ∧ r.code ≠ .ok := ⟨_, _, rfl, rfl, by decide⟩

/-- Nine bytes at `L = 4`: chunks 0 and 1 are full, chunk 2 is the last. -/
theorem test_witness_ChunksCoverPayload :
    1 ≤ cfg.xferLimit ∧ nchunks cfg 9 = 3 ∧ 1 + 1 < nchunks cfg 9 ∧ 2 + 1 = nchunks cfg 9 := by decide

theorem test_witness_ChunkCountLaw : 1 ≤ cfg.xferLimit ∧ 1 ≤ 1 := by decide

/-- Five bytes make two chunks: the lines 0 to 4, both chunks (5, 6), then 7, 8 and 9. -/
theorem test_witness_SendCommandLines :
    let i := Instr.wGate [1, 2, 3, 4, 5]
    wireCommand i = some (0x01, .bytes [1, 2, 3, 4, 5]) ∧ nchunks cfg 5 = 2 ∧
    (standing st i 0).seq.pc = 0 ∧ (standing st i 0).busOwner = none ∧
    ({ standing st i 0 with busOwner := some 1 } : State).busOwner = some 1 ∧
    (standing st i 1).seq.pc = 1 ∧ (standing st i 2).seq.pc = 2 ∧ (standing st i 4).seq.pc = 4 ∧
    (fixed (standing st i 3) [(1, true)] []).env.xferIn = [(1, true)] ∧ (standing st i 3).seq.pc = 3 ∧
    (standing st i 5).seq.pc = 5 + 0 ∧ 0 < 2 ∧ (standing st i 6).seq.pc = 5 + 1 ∧ 1 < 2 ∧
    (standing st i 7).seq.pc = 5 + 2 ∧ (standing st i 8).seq.pc = 6 + 2 ∧
    ({ standing st i 8 with busOwner := some 0 } : State).busOwner = some (standing st i 8).cur ∧
    (standing st i 9).seq.pc = 7 + 2 := by decide

/-- The one place of SLEEP, and the first of INIT, whose command has no payload. -/
theorem test_witness_SendCommandLines_protocol :
    (0x10, Payload.bytes [0x01]) ∈ protocolCommands cfg .sleep ∧ (0x12, Payload.bytes []) ∈ protocolCommands cfg .init ∧
    sendCommand cfg 0x10 (.bytes [0x01]) <+: (stepList cfg .sleep).drop 1 ∧ (standing st .sleep 1).seq.pc = 1 ∧
    sendCommand cfg 0x12 (.bytes []) <+: (stepList cfg .init).drop 9 := by decide

theorem test_witness_SendDataLines :
    let i := Instr.chData [1, 2, 3, 4, 5]
    nchunks cfg 5 = 2 ∧ (standing st i 0).seq.pc = 0 ∧ (standing st i 0).busOwner = none ∧
    ({ standing st i 0 with busOwner := some 1 } : State).busOwner = some 1 ∧
    (standing st i 1).seq.pc = 1 ∧ (standing st i 2).seq.pc = 2 ∧
    (fixed (standing st i 4) [(0, false)] []).env.xferIn = [(0, false)] ∧
    (standing st i 3).seq.pc = 3 + 0 ∧ 0 < 2 ∧ (standing st i 4).seq.pc = 3 + 1 ∧ 1 < 2 ∧
    (standing st i 5).seq.pc = 3 + 2 ∧ (standing st i 6).seq.pc = 4 + 2 ∧
    ({ standing st i 6 with busOwner := some 0 } : State).busOwner = some (standing st i 6).cur ∧
    (standing st i 7).seq.pc = 5 + 2 := by decide

theorem test_witness_ChannelLastLines :
    (standing st (.chCmd 0x20 []) 8).seq.pc = 8 + nchunks cfg 0 ∧ (standing st (.chData []) 6).seq.pc = 6 + nchunks cfg 0 ∧
    wireCommand (.wWriteBw (.plane .black)) = some (0x24, .plane .black) ∧
    (standing st (.wWriteBw (.plane .black)) 9).seq.pc = 8 + nchunks cfg (payloadLen cfg (.plane .black)) := by decide

theorem test_witness_WireCommandCompletes :
    let i := Instr.wWriteBw (.plane .black)
    wireCommand i = some (0x24, .plane .black) ∧ cfg.legal = true ∧ (able i).curOk ∧ (able i).seq.pc = 0 ∧
    (able i).busOwner = none ∧
    goodXfers (able i) ((commandEvents cfg st.fb 0 0x24 (.plane .black)).countP isXfer) := by
  unfold State.curOk goodXfers; decide

theorem test_witness_ChannelRequestsComplete :
    let i := Instr.chData [1, 2, 3, 4, 5]
    cfg.legal = true ∧ (able i).curOk ∧ (able i).seq.pc = 0 ∧ (able i).busOwner = none ∧
    goodXfers (able i) ((commandEvents cfg st.fb 0 0x24 (.bytes [1, 2, 3, 4, 5])).countP isXfer) ∧
    goodXfers (able i) ((dataEvents cfg st.fb 0 (.bytes [1, 2, 3, 4, 5])).countP isXfer) := by
  unfold State.curOk goodXfers; decide

/-- The two ways an opcode transfer fails: `ok = false` with the byte accepted, and no byte accepted. -/
theorem test_witness_OpcodeFailureRun :
    let s (r : Nat × Bool) := fixed (standing st (.chCmd 0x24 [1]) 0) [r] []
    (s (1, false)).curOk ∧ (s (1, false)).seq.pc = 0 ∧ (s (1, false)).busOwner = none ∧
    (s (1, false)).env.xferIn = [(1, false)] ∧ ¬(false = true ∧ 1 ≤ 1) ∧
    (s (0, true)).env.xferIn = [(0, true)] ∧ ¬(true = true ∧ 1 ≤ 0) := by
  unfold State.curOk; decide

/-- V-CH-7: the second of three chunks is short; and the last one, of one byte. -/
theorem test_witness_ChunkFailureRun :
    let src := Payload.bytes [0, 0, 0, 0, 0, 0, 0, 0, 0]
    let s (x : List (Nat × Bool)) := fixed (standing st (.chCmd 0x24 [0, 0, 0, 0, 0, 0, 0, 0, 0]) 0) x []
    let c1 := s (good 2 ++ [(3, true)])
    let d2 := s (good 2 ++ [(0, true)])
    cfg.legal = true ∧ c1.curOk ∧ c1.seq.pc = 0 ∧ c1.busOwner = none ∧ 1 < nchunks cfg 9 ∧ 2 < nchunks cfg 9 ∧
    ¬(true = true ∧ (payloadChunk cfg st.fb src 1).length ≤ 3) ∧ goodXfers c1 (1 + 1) ∧
    c1.env.xferIn.drop (1 + 1) = [(3, true)] ∧
    ¬(true = true ∧ (payloadChunk cfg st.fb src 2).length ≤ 0) ∧ goodXfers d2 2 ∧ d2.env.xferIn.drop 2 = [(0, true)] := by
  unfold State.curOk goodXfers; decide

theorem test_witness_FailureSkipsOwnCommandOnly :
    (standing st .sleep 4).curOk ∧ stepAt cfg .sleep (standing st .sleep 4).seq.pc = some (.xferOp 0x10 2) ∧
    (standing st .displayFb 16).curOk ∧
    stepAt cfg .displayFb (standing st .displayFb 16).seq.pc = some (.xferChunk (.plane .black) 0 0) := by
  unfold State.curOk; decide

/-- A failed opcode transfer, and a failed last chunk, of a protocol request go on at `PinWrite(CS, 1)`. -/
theorem test_failed_transfers_skip :
    nextSat (exec .sleep (fixed (standing st .sleep 4) [(1, false)] []))
      (fun t => decide (t.seq.ok = false ∧ stepAt cfg .sleep t.seq.pc = some (.pin .cs true))) = true ∧
    nextSat (exec .displayFb (fixed (standing st .displayFb 16) [(3, true)] []))
      (fun t => decide (t.seq.ok = false ∧ stepAt cfg .displayFb t.seq.pc = some (.pin .cs true))) = true := by decide

theorem test_witness_ErrorRegistersOnlyByLog :
    ∃ t, exec (.chCmd 0x24 []) (standing st (.chCmd 0x24 []) 7) = .next t ∧ t.err ≠ st.err := ⟨_, rfl, by decide⟩

/-- The entry of each kind, allowed and not, held, and its exit. -/
theorem test_witness_EntryAndExitLines :
    let idle : State := { st with dstate := .idle }
    (standing st .init 0).seq.pc = 0 ∧ (standing st .init 0).fsmOwner = none ∧
    (standing idle (.display [0, 0, 0, 0] []) 0).dstate = .idle ∧ [(0 : Byte), 0, 0, 0].length ≤ cfg.planeSize ∧
    ¬((standing st .clear 0).dstate = .idle) ∧ (standing { st with dstate := .asleep } .sleep 0).dstate = .asleep ∧
    ¬((standing st .sleep 0).dstate = .idle ∨ (standing st .sleep 0).dstate = .asleep) ∧
    ({ standing st .displayFb 0 with fsmOwner := some 1 } : State).fsmOwner = some 1 ∧
    (let s : State := { standing st .sleep 10 with fsmOwner := some 0 }
     s.seq.pc + 1 = (stepList s.cfg .sleep).length ∧ s.fsmOwner = some s.cur) := by decide

theorem test_witness_ResetPulseRun :
    (standing st .init 1).curOk ∧ (standing st .init 1).seq.pc = 1 ∧ (standing st .init 1).busOwner = none ∧
    stepAt cfg .init 4 = some (.pin .rst false) := by
  unfold State.curOk; decide

/-- V-PR-1, and a wait that is ready at once. -/
theorem test_witness_BusyWaitRun :
    let s (b : List Level) := fixed (standing st .init 17) [] b
    (s []).curOk ∧ stepAt cfg .init 17 = some .sampleBusy ∧ (s []).seq.pc = 17 ∧
    (s [false, false, true]).env.busyIn = List.replicate 2 (!cfg.busyReady) ++ [true] ∧ [true] = cfg.busyReady :: [] ∧
    (s [true]).env.busyIn = List.replicate 0 (!cfg.busyReady) ++ [true] := by
  unfold State.curOk; decide

theorem test_witness_InitCompletes :
    let s := able .init
    cfg.legal = true ∧ s.curOk ∧ s.seq.pc = 0 ∧ s.seq.xf = false ∧ s.seq.sq = false ∧ s.busOwner = none ∧
    s.fsmOwner = none ∧ goodXfers s ((initEvents cfg st.fb 0).countP isXfer) ∧
    readySamples s ((initEvents cfg st.fb 0).countP isBusy) := by
  unfold State.curOk goodXfers readySamples; decide

/-- Buffers of exactly a plane and of none; the same events meet the premises of CLEAR and DISPLAY_FB. -/
theorem test_witness_DisplayCompletes :
    let s := able (.display [0, 0, 0, 0] [])
    let es := uploadEvents cfg st.fb 0 (.bytes [0, 0, 0, 0]) (.bytes (List.replicate 4 0x00)) ++ refreshEvents cfg st.fb 0
    cfg.legal = true ∧ s.curOk ∧ [(0 : Byte), 0, 0, 0].length ≤ cfg.planeSize ∧ s.seq.pc = 0 ∧ s.seq.xf = false ∧
    s.seq.sq = false ∧ s.busOwner = none ∧ s.fsmOwner = none ∧ goodXfers s (es.countP isXfer) ∧
    readySamples s (es.countP isBusy) := by
  unfold State.curOk goodXfers readySamples; decide

theorem test_witness_DisplayTooLongRefused :
    (standing st (.display [0, 0, 0, 0, 0] []) 0).seq.pc = 0 ∧ cfg.planeSize < [(0 : Byte), 0, 0, 0, 0].length := by decide

theorem test_witness_ClearCompletes :
    let s := able .clear
    let es := uploadEvents cfg st.fb 0 (.bytes (List.replicate 4 0xFF)) (.bytes (List.replicate 4 0x00)) ++
      refreshEvents cfg st.fb 0
    s.curOk ∧ s.seq.pc = 0 ∧ s.seq.xf = false ∧ s.seq.sq = false ∧ s.busOwner = none ∧ s.fsmOwner = none ∧
    goodXfers s (es.countP isXfer) ∧ readySamples s (es.countP isBusy) := by
  unfold State.curOk goodXfers readySamples; decide

theorem test_witness_DisplayFbCompletes :
    let s := able .displayFb
    let es := uploadEvents cfg s.fb 0 (.bytes ((List.range 4).map (s.fb.readByte .black)))
        (.bytes ((List.range 4).map (s.fb.readByte .hl))) ++ refreshEvents cfg s.fb 0
    s.curOk ∧ s.seq.pc = 0 ∧ s.seq.xf = false ∧ s.seq.sq = false ∧ s.busOwner = none ∧ s.fsmOwner = none ∧
    goodXfers s (es.countP isXfer) ∧ readySamples s (es.countP isBusy) ∧
    (standing st .displayFb 10).seq.pc = 9 + nchunks cfg cfg.pRamyOrigin.length ∧
    (standing st .displayFb 29).seq.pc = 9 + nchunks cfg cfg.pRamyOrigin.length + 17 + 2 * nchunks cfg cfg.planeSize := by
  unfold State.curOk goodXfers readySamples; decide

/-- P3: the opcode transfer of the 0x24 command answers `(0, false)`. -/
theorem test_witness_DisplayGoesOnAfterFailedWrite :
    let s := fixed (standing { st with dstate := .idle } (.display [0x00] []) 0) (good 2 ++ (0, false) :: good 20)
      (List.replicate 8 true)
    let first := commandEvents cfg st.fb 0 0x4F (.bytes cfg.pRamyOrigin)
    let last := commandEvents cfg st.fb 0 0x26 (.bytes (List.replicate 4 0x00)) ++ refreshEvents cfg st.fb 0
    s.curOk ∧ s.seq.pc = 0 ∧ s.dstate = .idle ∧ goodXfers s (first.countP isXfer) ∧
    s.env.xferIn.drop (first.countP isXfer) = (0, false) :: good 20 ∧ ¬(false = true ∧ 1 ≤ 0) ∧
    goodXfers { s with env := { s.env with xferIn := good 20 } } (last.countP isXfer) ∧
    readySamples s (last.countP isBusy) := by
  unfold State.curOk goodXfers readySamples; decide

/-- The first and last chunk, out of sequence: it accepts 3 of its 4 bytes and says it succeeded. -/
theorem test_witness_DisplayGoesOnAfterFailedWrite_chunk :
    let s := fixed (standing st (.display [0x00] []) 0) (good 3 ++ (3, true) :: good 20) (List.replicate 8 true)
    let first := commandEvents cfg st.fb 0 0x4F (.bytes cfg.pRamyOrigin)
    let last := commandEvents cfg st.fb 0 0x26 (.bytes (List.replicate 4 0x00)) ++ refreshEvents cfg st.fb 0
    let len := (payloadChunk cfg st.fb (.bytes [0x00, 0xFF, 0xFF, 0xFF]) 0).length
    s.curOk ∧ s.dstate ≠ .idle ∧ 0 < nchunks cfg cfg.planeSize ∧ goodXfers s (first.countP isXfer + (1 + 0)) ∧
    s.env.xferIn.drop (first.countP isXfer + (1 + 0)) = (3, true) :: good 20 ∧ ¬(true = true ∧ len ≤ 3) ∧
    goodXfers { s with env := { s.env with xferIn := good 20 } } (last.countP isXfer) ∧
    readySamples s (last.countP isBusy) := by
  unfold State.curOk goodXfers readySamples; decide

theorem test_witness_SleepCompletes :
    let s := able .sleep
    cfg.legal = true ∧ s.curOk ∧ s.seq.pc = 0 ∧ s.seq.xf = false ∧ s.seq.sq = false ∧ s.busOwner = none ∧
    s.fsmOwner = none ∧ goodXfers s ((commandEvents cfg st.fb 0 0x10 (.bytes [0x01])).countP isXfer) ∧
    (fixed s [(0, false)] []).env.xferIn = [(0, false)] ∧ ¬(false = true ∧ 1 ≤ 0) := by
  unfold State.curOk goodXfers; decide

theorem test_witness_PixelIndexInPlane : 15 < cfg.width ∧ 1 < cfg.height := by decide

/-- The last pixel, and the first coordinates out of bounds each way. -/
theorem test_witness_FbSetWritesPixel :
    Memory.wf (planeFill .black) drawing.fb.black = true ∧ Memory.wf (planeFill .hl) drawing.fb.hl = true ∧
    ((15 : BitVec 12).toNat < cfg.width ∧ (1 : BitVec 12).toNat < cfg.height) ∧
    ¬((16 : BitVec 12).toNat < cfg.width ∧ (1 : BitVec 12).toNat < cfg.height) ∧
    ¬((15 : BitVec 12).toNat < cfg.width ∧ (2 : BitVec 12).toNat < cfg.height) := by decide

/-- The four pairs of pixel (0,0). -/
theorem test_witness_FbGetReadsPixel :
    let pair (b h : List Host.Cell) : Bool × Bool :=
      (FrameBuf.pixelPair { st.fb with black := b, hl := h } cfg 0 0)
    pair [] [] = (true, false) ∧ pair [(0, 0x7F)] [] = (false, false) ∧ pair [] [(0, 0x80)] = (true, true) ∧
    pair [(0, 0x7F)] [(0, 0x80)] = (false, true) ∧
    ¬((16 : BitVec 12).toNat < cfg.width ∧ (0 : BitVec 12).toNat < cfg.height) := by decide

theorem test_witness_SetGetRoundTrip :
    Memory.wf (planeFill .black) st.fb.black = true ∧ Memory.wf (planeFill .hl) st.fb.hl = true ∧
    (∃ t, exec (.fbSet 15 1 .highlight) st = .next t ∧ t.cfg = st.cfg) ∧ (∃ t, exec (.fbSet 16 0 .black) st = .next t) ∧
    ((14, 1) : Nat × Nat) ≠ ((15 : BitVec 12).toNat, (1 : BitVec 12).toNat) ∧ 14 < cfg.width :=
  ⟨by decide, by decide, ⟨_, rfl, rfl⟩, ⟨_, rfl⟩, by decide, by decide⟩

theorem test_witness_FbClearFillsPlanes : ∃ v, exec .fbClear { st with fb := st.fb.cleared } = .next v := ⟨_, rfl⟩

/-- The start, the first and the last pixel, and the end. -/
theorem test_witness_FbDrawLines :
    let i := Instr.fbDraw (dotSource 2)
    let b : Three Role := { i0 := .white, i1 := .black, i2 := .highlight }
    (standing st i 0).seq.pc = 0 ∧ (standing st i 1).seq.pc = 0 * cfg.width + 0 + 1 ∧
    encodePixel st.roleRgb b (dotSource 2) 0 0 = some .highlight ∧
    (standing st i 32).seq.pc = 1 * cfg.width + 15 + 1 ∧ encodePixel st.roleRgb b (dotSource 2) 15 1 = some .white ∧
    (standing st i 33).seq.pc = cfg.width * cfg.height + 1 := by decide

theorem test_witness_DrawFaultsOnReservedIndex :
    (standing st (.fbDraw (dotSource 3)) 1).seq.pc = 0 * cfg.width + 0 + 1 ∧ (dotSource 3).x0 ≤ 0 ∧ 0 < (dotSource 3).x1 ∧
    (dotSource 3).pal ≠ [] ∧ pixIndex (dotSource 3) 0 0 = some 3 ∧ (dotSource 3).pal.length ≤ 3 := by decide

theorem test_witness_FbDrawCompletes :
    let s := standing st (.fbDraw (dotSource 2)) 0
    s.curOk ∧ s.seq.pc = 0 ∧ (dotSource 2).wf = true ∧ Memory.wf (planeFill .black) s.fb.black = true ∧
    Memory.wf (planeFill .hl) s.fb.hl = true ∧
    ∀ x y n, sourceContains (dotSource 2) x y = true → pixIndex (dotSource 2) x y = some n → n < (dotSource 2).pal.length := by
  refine ⟨by unfold State.curOk; decide, by decide, by decide, by decide, by decide, fun x y n hc hn => ?_⟩
  have hxy : x < 1 ∧ y < 1 := by simpa [sourceContains, dotSource] using hc
  obtain rfl : x = 0 := by omega
  obtain rfl : y = 0 := by omega
  cases hn
  decide

/-- On one pixel: from reset and from a black plane. -/
theorem test_witness_DrawOverwrites :
    let s := standing (State.ofCfg dotCfg) (.fbDraw (dotSource 2)) 0
    let f : FrameBuf := { s.fb with black := [(0, 0x00)] }
    s.curOk ∧ s.seq.pc = 0 ∧ Memory.wf (planeFill .black) f.black = true ∧ Memory.wf (planeFill .hl) f.hl = true ∧
    ∃ t t', execN (.fbDraw (dotSource 2)) (dotCfg.width * dotCfg.height + 2) s = .next t ∧
      execN (.fbDraw (dotSource 2)) (dotCfg.width * dotCfg.height + 2) { s with fb := f } = .next t' ∧ t.seq.op = .idle :=
  ⟨by unfold State.curOk; decide, by decide, by decide, by decide, _, _, rfl, rfl, rfl⟩

theorem test_witness_RaceFlagRule :
    ∃ t, exec .fbClear { st with fb := { st.fb with drawOwner := some 0 } } = .next t ∧ t.fb.race = true := ⟨_, rfl, rfl⟩

theorem test_witness_NearestIsLowestMinimum : [red, black] ≠ [] := by decide

theorem test_witness_BindRolesClaimsNearest :
    [red, white, black][1]? = some white ∧ [red, white, black][2]? = some black ∧ [red, white, black][0]? = some red := by
  decide

/-- Outside at `x = x1`; the exact path's indices; the general path with one colour, and with none. -/
theorem test_witness_EncodeRule :
    let general : Source := { dotSource 1 with pal := [red] }
    let direct : Source := { dotSource 0 with pal := [], idx := [], rgb := [red] }
    ¬((dotSource 2).x0 ≤ 1 ∧ 1 < (dotSource 2).x1 ∧ (dotSource 2).y0 ≤ 0 ∧ 0 < (dotSource 2).y1) ∧
    (dotSource 2).pal.length = 3 ∧ pixIndex (dotSource 0) 0 0 = some 0 ∧ pixIndex (dotSource 1) 0 0 = some 1 ∧
    pixIndex (dotSource 2) 0 0 = some 2 ∧ pixIndex (dotSource 3) 0 0 = some 3 ∧
    general.pal.length ≠ 3 ∧ general.pal ≠ [] ∧ pixIndex general 0 0 = some 1 ∧ general.pal.length ≤ 1 ∧
    general.pal[0]? = some red ∧ direct.pal = [] ∧ pixColour direct 0 0 = some red := by decide

theorem test_witness_ChannelFrame :
    (wireCommand .wSwreset).isSome = true ∧ ∃ t, exec .wSwreset (standing st .wSwreset 0) = .next t := ⟨rfl, _, rfl⟩

theorem test_witness_ProtocolFrame :
    isProtocol .displayFb = true ∧ Instr.displayFb ≠ .init ∧ Instr.clear ≠ .displayFb ∧
    ∃ t, exec .displayFb (standing st .displayFb 10) = .next t := ⟨rfl, by decide, by decide, _, rfl⟩

theorem test_witness_FramebufferFrame :
    (∃ t, exec .status st = .next t) ∧ (∃ t, exec (.fbGet 0 0) st = .next t) ∧ (∃ t, exec (.fbSet 0 0 .black) st = .next t) ∧
    (∃ t, exec (.fbDraw (dotSource 2)) (standing st (.fbDraw (dotSource 2)) 32) = .next t) ∧
    1 ≠ pixelIndex cfg 0 0 := ⟨⟨_, rfl⟩, ⟨_, rfl⟩, ⟨_, rfl⟩, ⟨_, rfl⟩, by decide⟩

theorem test_witness_UnfixedDrawsActAsFixed :
    stepAt cfg .sleep 4 = some (.xferOp 0x10 2) ∧ stepAt cfg .sleep 6 = some (.xferChunk (.bytes [0x01]) 0 0) ∧
    stepAt cfg .init 17 = some .sampleBusy ∧ st.env.xferIn = [] ∧ st.env.busyIn = [] := by decide

end Sys2Proof.Tests
end

section
/-! PROOFS. The family of spec/00_scope.md: what one step always does (O12), what it leaves to the other ports
(O18), and that a draw the environment has not fixed acts as some fixed one (O60). -/

namespace Sys2Proof.Proofs

open Sys2Proof.Machine Sys2Proof.Laws

/-! ## Where a step list takes and gives back ownership -/

/-- The micro-steps that give a lock back find it held by the running port (00_scope.md R15). -/
def ReleasesOwned (m : Micro) (s : State) : Prop :=
  match m with
  | .release | .releaseCmd => s.busOwner = some s.cur
  | .exit _ => s.fsmOwner = some s.cur
  | _ => True

/-- A release from the wrong port is the only way a micro-step is refused. -/
theorem runMicro_answers (m : Micro) (s : State) (h : ReleasesOwned m s) : ∃ t, runMicro m s = .next t := by
  cases m with
  | acquire =>
    rcases hb : s.busOwner with _ | p
    · exact ⟨_, microAcquire_free s hb⟩
    · exact ⟨_, microAcquire_held s p hb⟩
  | release | releaseCmd => exact ⟨_, releaseBus_owner _ s h⟩
  | entry k =>
    rcases hf : s.fsmOwner with _ | p
    · cases ha : allowedFrom k s.dstate
      · exact ⟨_, protocolEntry_refused k s hf ha⟩
      · exact ⟨_, protocolEntry_allowed k s hf ha⟩
    · exact ⟨_, protocolEntry_held k s p hf⟩
  | exit k => exact ⟨_, protocolExit_owner k s h⟩
  | drawPixel src k =>
    simp only [runMicro, drawPixel]
    split
    · exact ⟨_, rfl⟩
    · exact ⟨_, rfl⟩
  | pin _ _ | delay _ | sampleBusy | pollDelay | xferOp _ _ | xferChunk _ _ _ | logXfer _ | startRefresh | openWindow
  | closeWindow | respondSent | ret | drawStart _ | drawEnd => exact ⟨_, rfl⟩

/-- FB_GET has an answer in and out of bounds, and raising its fault is a next state (log 11). -/
theorem execFbGet_answers (x y : BitVec 12) (s : State) : ∃ t, execFbGet x y s = .next t := by
  unfold execFbGet
  split
  · split
    · exact ⟨_, rfl⟩
    · exact ⟨_, rfl⟩
  · exact ⟨_, rfl⟩

/-- A SEND_COMMAND holds no EXIT. -/
theorem exit_not_mem_sendCommand (c : Cfg) (op : Byte) (src : Payload) (k : Proto) :
    Micro.exit k ∉ sendCommand c op src := by
  simp [sendCommand, dataBody]

/-- A SEND_DATA holds no EXIT. -/
theorem exit_not_mem_sendData (c : Cfg) (src : Payload) (k : Proto) : Micro.exit k ∉ sendData c src := by
  simp [sendData, dataBody]

/-- A wire command alone in a sequencer holds no EXIT. -/
theorem exit_not_mem_wire (c : Cfg) (op : Byte) (src : Payload) (k : Proto) :
    Micro.exit k ∉ sendCommand c op src ++ [.ret] := by
  simp [exit_not_mem_sendCommand]

/-- EXIT stands only in the protocol requests (41_protocol.md R153). -/
theorem isProtocol_of_exit (c : Cfg) (i : Instr) (pc : Nat) (k : Proto) (h : stepAt c i pc = some (.exit k)) :
    isProtocol i = true := by
  cases i with
  | init | display _ _ | displayFb | clear | sleep => rfl
  | status | fbSet _ _ _ | fbGet _ _ | fbClear => simp [stepAt, stepList] at h
  | fbDraw src =>
    simp only [stepAt, drawStepAt] at h
    split_ifs at h <;> cases h
  | chCmd op payload =>
    have hm := List.mem_of_getElem? h
    simp [stepList, chCmdSteps, exit_not_mem_sendCommand] at hm
  | chData payload =>
    have hm := List.mem_of_getElem? h
    simp [stepList, chDataSteps, exit_not_mem_sendData] at hm
  | wSwreset | wAutowriteHl _ | wAutowriteBw _ | wSoftstart _ | wGate _ | wDataEntry _ | wRamxWindow _ | wRamyWindow _
  | wBorder _ | wTempSensor _ | wUpdateCtrl2 _ | wMasterAct | wWriteBw _ | wWriteHl _ | wRamxCounter _ | wRamyCounter _
  | wDeepSleep => exact absurd (List.mem_of_getElem? h) (exit_not_mem_wire _ _ _ _)

/-- What an instruction does first: a protocol request its ENTRY, FB_DRAW its START, a channel request or a wire command
`Acquire(BUS)`; the requests of one step have no step list. -/
theorem stepAt_zero (c : Cfg) (i : Instr) :
    (∃ k, stepAt c i 0 = some (.entry k)) ∨ (∃ src, stepAt c i 0 = some (.drawStart src)) ∨
    stepAt c i 0 = some .acquire ∨ i = .status ∨ (∃ x y r, i = .fbSet x y r) ∨ (∃ x y, i = .fbGet x y) ∨ i = .fbClear := by
  cases i with
  | init | display _ _ | displayFb | clear | sleep => exact .inl ⟨_, rfl⟩
  | fbDraw src => exact .inr (.inl ⟨src, rfl⟩)
  | status => exact .inr (.inr (.inr (.inl rfl)))
  | fbSet x y r => exact .inr (.inr (.inr (.inr (.inl ⟨x, y, r, rfl⟩))))
  | fbGet x y => exact .inr (.inr (.inr (.inr (.inr (.inl ⟨x, y, rfl⟩)))))
  | fbClear => exact .inr (.inr (.inr (.inr (.inr (.inr rfl)))))
  | chCmd _ _ | chData _ | wSwreset | wAutowriteHl _ | wAutowriteBw _ | wSoftstart _ | wGate _ | wDataEntry _
  | wRamxWindow _ | wRamyWindow _ | wBorder _ | wTempSensor _ | wUpdateCtrl2 _ | wMasterAct | wWriteBw _ | wWriteHl _
  | wRamxCounter _ | wRamyCounter _ | wDeepSleep => exact .inr (.inr (.inl rfl))

/-- EXIT is not the first micro-step: an instruction starts by taking what it needs. -/
theorem exit_pc_pos (c : Cfg) (i : Instr) (pc : Nat) (k : Proto) (h : stepAt c i pc = some (.exit k)) : 0 < pc := by
  refine Nat.pos_of_ne_zero fun h0 => ?_
  have hproto := isProtocol_of_exit c i pc k h
  subst h0
  rcases stepAt_zero c i with ⟨k', h'⟩ | ⟨src, h'⟩ | h' | rfl | ⟨x, y, r, rfl⟩ | ⟨x, y, rfl⟩ | rfl
  · cases h'.symm.trans h
  · cases h'.symm.trans h
  · cases h'.symm.trans h
  all_goals cases hproto

/-! ## What `exec` and `step` do, in the form the statements need -/

/-- An instruction with a micro-step at `pc` runs it, or is a DISPLAY refused for its length before its ENTRY. -/
theorem exec_at_micro (i : Instr) (s : State) (m : Micro) (hm : stepAt s.cfg i s.seq.pc = some m) :
    exec i s = runMicro m s ∨
    (m = .entry .display ∧ exec i s = .next (s.respond (refuseResp .len .empty))) := by
  by_cases hc : ∃ b hl, i = .display b hl ∧ s.seq.pc = 0 ∧ tooLong s.cfg b hl = true
  · obtain ⟨b, hl, rfl, hpc, htoo⟩ := hc
    rw [hpc] at hm
    exact .inr ⟨(Option.some.inj hm).symm, if_pos ⟨hpc, htoo⟩⟩
  · refine .inl (exec_of_stepAt i s m hm fun b hl hi hpc => ?_)
    by_contra htoo
    exact hc ⟨b, hl, hi, hpc, by simpa using htoo⟩

/-- Every step, with the choice of the port and of the environment named: no micro-step at all; an illegal request answered;
an accepted request's first micro-step; or the micro-step of a request in progress. -/
theorem step_from_choice (s : State) : ∃ (e : Env) (p : Nat),
    let u : State := { s with env := e, cur := p }
    step s = .next { s with env := e } ∨
    (p < s.ports.length ∧
      (step s = .next u ∨ step s = .next u.respondIllegal ∨ (∃ i, step s = exec i (u.accept i)) ∨
        ∃ i, u.seq.op = .busy i ∧ step s = exec i u)) := by
  refine ⟨s.drawPort.2.env, s.drawPort.1, ?_⟩
  have hcases := step_cases s
  rw [drawPort_snd] at hcases
  rcases hcases with ⟨-, h⟩ | ⟨hp, ⟨-, h⟩ | ⟨-, -, h⟩ | ⟨-, -, h⟩ | ⟨-, r, rest, i, -, -, h⟩ | ⟨i, hop, h⟩⟩
  · exact .inl h
  · exact .inr ⟨hp, .inl h⟩
  · exact .inr ⟨hp, .inl h⟩
  · exact .inr ⟨hp, .inr (.inl h)⟩
  · exact .inr ⟨hp, .inr (.inr (.inl ⟨i, h⟩))⟩
  · exact .inr ⟨hp, .inr (.inr (.inr ⟨i, hop, h⟩))⟩

/-! ## A step answers a next state (O12) -/

/-- An instruction at a micro-step that gives back only what its port owns answers a next state. -/
theorem exec_answers (i : Instr) (s : State) (m : Micro) (hm : stepAt s.cfg i s.seq.pc = some m)
    (hown : ReleasesOwned m s) : ∃ t, exec i s = .next t := by
  rcases exec_at_micro i s m hm with h | ⟨-, h⟩
  · rw [h]; exact runMicro_answers m s hown
  · exact ⟨_, h⟩

/-- Every instruction answers a next state when it starts, whoever owns the locks. -/
theorem exec_answers_at_start (i : Instr) (s : State) (hpc : s.seq.pc = 0) : ∃ t, exec i s = .next t := by
  have hz := stepAt_zero s.cfg i
  rw [← hpc] at hz
  rcases hz with ⟨k, h⟩ | ⟨src, h⟩ | h | rfl | ⟨x, y, r, rfl⟩ | ⟨x, y, rfl⟩ | rfl
  · exact exec_answers i s _ h trivial
  · exact exec_answers i s _ h trivial
  · exact exec_answers i s _ h trivial
  · exact ⟨_, rfl⟩
  · exact ⟨_, execFbSet_eq x y r s⟩
  · exact execFbGet_answers x y s
  · exact ⟨_, execFbClear_eq s⟩

/-- The invariant says nothing of the environment's draws and of which port runs. -/
theorem inv_choose {s : State} (h : Inv s) (e : Env) (p : Nat) : Inv { s with env := e, cur := p } where
  cfgLegal := h.cfgLegal
  portCount := h.portCount
  palette := h.palette
  busInRange := h.busInRange
  fsmInRange := h.fsmInRange
  csHigh := h.csHigh
  resting := h.resting
  port := h.port

/-- A running port that agrees with the locks stands at a micro-step and owns what that one gives back. -/
theorem portInv_micro (s : State) (i : Instr) (h : portInv s s.cur) (hop : s.seq.op = .busy i) :
    ∃ m, stepAt s.cfg i s.seq.pc = some m ∧ ReleasesOwned m s := by
  have hop' : (s.portAt s.cur).seq.op = .busy i := hop
  simp only [portInv, hop'] at h
  obtain ⟨m, hm, hbus, -, hfsm, -, -⟩ := h
  refine ⟨m, hm, ?_⟩
  cases m with
  | release | releaseCmd => exact hbus.mpr rfl
  | exit k => exact hfsm.mpr ⟨isProtocol_of_exit _ _ _ _ hm, exit_pc_pos _ _ _ _ hm⟩
  | acquire | pin _ _ | delay _ | sampleBusy | pollDelay | xferOp _ _ | xferChunk _ _ _ | logXfer _ | entry _
  | startRefresh | openWindow | closeWindow | respondSent | ret | drawStart _ | drawPixel _ _ | drawEnd => trivial

/-- An accepted request stands at its first micro-step. -/
theorem accept_pc (s : State) (i : Instr) (h : s.curOk) : (s.accept i).seq.pc = 0 := by
  have hcur : s.popInbox.curOk := h.trans_eq (setPort_length s _).symm
  rw [State.accept, setSeq_seq _ _ hcur]; rfl

/-- Settles O12: a port in progress owns what its micro-step gives back, and an accepted request starts by giving nothing
back. -/
theorem stepAnswersUnderInv : Obligations.StepAnswersUnderInv := by
  intro s hinv
  obtain ⟨e, p, h⟩ := step_from_choice s
  rcases h with h | ⟨hp, h | h | ⟨i, h⟩ | ⟨i, hop, h⟩⟩
  · exact ⟨_, h⟩
  · exact ⟨_, h⟩
  · exact ⟨_, h⟩
  · rw [h]; exact exec_answers_at_start i _ (accept_pc _ i hp)
  · obtain ⟨m, hm, hown⟩ := portInv_micro _ i ((inv_choose hinv e p).port p hp) hop
    rw [h]; exact exec_answers i _ m hm hown

/-! ## A step is one port's step (O18) -/

/-- Between `s` and `t` only the port that runs in `s` may differ, and the trace has grown by at most one event. -/
structure LocalTo (s t : State) : Prop where
  cur : t.cur = s.cur
  others : ∀ p, p ≠ s.cur → t.portAt p = s.portAt p
  trace : t.trace = s.trace ∨ ∃ e, t.trace = s.trace ++ [e]

theorem LocalTo.refl (s : State) : LocalTo s s := ⟨rfl, fun _ _ => rfl, .inl rfl⟩

/-- A state that replaces the running port's record and adds no event. -/
theorem LocalTo.of_silent {s t : State} {q : Port} (hcur : t.cur = s.cur) (hports : t.ports = s.ports.set s.cur q)
    (htrace : t.trace = s.trace) : LocalTo s t where
  cur := hcur
  others p hp := by simp only [State.portAt, hports, getD_set_other _ _ _ _ _ hp.symm]
  trace := .inl htrace

/-- A state that replaces the running port's record and adds one event. -/
theorem LocalTo.of_event {s t : State} {q : Port} {e : Event} (hcur : t.cur = s.cur)
    (hports : t.ports = s.ports.set s.cur q) (htrace : t.trace = s.trace ++ [e]) : LocalTo s t where
  cur := hcur
  others p hp := by simp only [State.portAt, hports, getD_set_other _ _ _ _ _ hp.symm]
  trace := .inr ⟨e, htrace⟩

/-- A local step after a change of the running port's record alone is local. -/
theorem LocalTo.after_silent {s u t : State} (h : LocalTo u t) (hu : LocalTo s u) (htrace : u.trace = s.trace) :
    LocalTo s t where
  cur := h.cur.trans hu.cur
  others p hp := (h.others p (hu.cur.symm ▸ hp)).trans (hu.others p hp)
  trace := htrace ▸ h.trace

/-- `return resp(...)` ends the running port's request with one event. -/
theorem respond_local (s : State) (r : Response) : LocalTo s (s.respond r) := .of_event rfl rfl rfl

/-- Each micro-step touches its own port and emits at most one event (00_scope.md R9, R15). -/
theorem runMicro_local (m : Micro) (s t : State) (h : runMicro m s = .next t) : LocalTo s t := by
  have hnext := runMicro_next m s t h
  cases m with
  | acquire =>
    obtain ⟨-, rfl⟩ | ⟨-, rfl⟩ := hnext
    · exact .of_event rfl rfl rfl
    · exact .refl _
  | release | releaseCmd | exit _ => obtain ⟨-, rfl⟩ := hnext; exact .of_event rfl rfl rfl
  | sampleBusy => obtain ⟨_, _, -, -, rfl⟩ := hnext; exact .of_event rfl rfl rfl
  | xferOp _ _ | xferChunk _ _ _ => obtain ⟨_, _, _, -, -, -, rfl⟩ := hnext; exact .of_event rfl rfl rfl
  | entry k =>
    obtain ⟨-, -, rfl⟩ | ⟨-, -, rfl⟩ | ⟨-, rfl⟩ := hnext
    · exact .of_silent rfl rfl rfl
    · exact .of_silent rfl rfl rfl
    · exact .refl _
  | drawPixel _ _ =>
    obtain ⟨_, -, rfl⟩ | ⟨-, rfl⟩ := hnext
    · exact .of_silent rfl rfl rfl
    · exact .of_silent rfl rfl rfl
  | startRefresh | openWindow | closeWindow | ret | drawStart _ => cases hnext; exact .of_silent rfl rfl rfl
  | pin _ _ | delay _ | pollDelay | logXfer _ | respondSent | drawEnd => cases hnext; exact .of_event rfl rfl rfl

/-- FB_GET answers its own port, or stops it with a fault. -/
theorem execFbGet_local (x y : BitVec 12) (s t : State) (h : execFbGet x y s = .next t) : LocalTo s t := by
  obtain ⟨-, _, -, rfl⟩ | ⟨-, -, rfl⟩ | ⟨-, _, rfl⟩ := execFbGet_next x y s t h
  · exact .of_event rfl rfl rfl
  · exact .of_silent rfl rfl rfl
  · exact .of_event rfl rfl rfl

/-- An instruction's micro-step is the running port's own. -/
theorem exec_local (i : Instr) (s t : State) (h : exec i s = .next t) : LocalTo s t := by
  rcases exec_cases i s with ⟨m, -, he⟩ | ⟨b, hl, -, -, -, he⟩ | ⟨-, he⟩ | ⟨x, y, r, -, he⟩ | ⟨x, y, -, he⟩ | ⟨-, he⟩ |
    ⟨-, he⟩ <;> rw [he] at h
  · exact runMicro_local m s t h
  · cases h; exact respond_local s _
  · cases h; exact respond_local s _
  · rw [execFbSet_eq] at h; cases h; exact .of_event rfl rfl rfl
  · exact execFbGet_local x y s t h
  · rw [execFbClear_eq] at h; cases h; exact .of_event rfl rfl rfl
  · cases h

/-- A request leaves the running port's inbox. -/
theorem popInbox_local (s : State) : LocalTo s s.popInbox := .of_silent rfl rfl rfl

/-- A request is accepted by the running port and emits nothing. -/
theorem accept_local (s : State) (i : Instr) : LocalTo s (s.accept i) :=
  LocalTo.after_silent (u := s.popInbox) (.of_silent rfl rfl rfl) (popInbox_local s) rfl

/-- Settles O18: every kind of step is local to the port that moves. -/
theorem stepIsOnePortsStep : Obligations.StepIsOnePortsStep := by
  intro s t h
  obtain ⟨e, p, hstep⟩ := step_from_choice s
  have hu : LocalTo { s with env := e, cur := p } t →
      (∀ p, p ≠ t.cur → t.portAt p = s.portAt p) ∧ (t.trace = s.trace ∨ ∃ e, t.trace = s.trace ++ [e]) :=
    fun hl => ⟨fun p hp => hl.others p (hl.cur ▸ hp), hl.trace⟩
  rcases hstep with h' | ⟨hp, h' | h' | ⟨i, h'⟩ | ⟨i, -, h'⟩⟩ <;> rw [h'] at h
  · cases h; exact ⟨fun _ _ => rfl, .inl rfl⟩
  · cases h; exact hu (.refl _)
  · cases h; exact hu ((respond_local _ _).after_silent (popInbox_local _) rfl)
  · exact hu ((exec_local i _ t h).after_silent (accept_local _ i) rfl)
  · exact hu (exec_local i _ t h)

/-! ## Draws with no fixed answer (O60) -/

/-- The state in which the environment has fixed `x` as the answers of the next transfers. -/
def withXfers (s : State) (x : List (Nat × Bool)) : State := { s with env := { s.env with xferIn := x } }

/-- The state in which the environment has fixed `b` as the answers of the next busy samples. -/
def withSamples (s : State) (b : List Level) : State := { s with env := { s.env with busyIn := b } }

/-- The state `t` with the environment `e` one draw on (log 3). -/
def oneDraw (e : Env) (t : State) : State := { t with env := { e with draws := e.draws + 1 } }

/-- From `s`, the outcome `free` is the outcome `fixed` but for the counter of log 3. -/
def ActsAsFixed (s : State) (fixed free : Out) : Prop :=
  ∃ t, fixed = .next t ∧ t.env = s.env ∧ free = .next (oneDraw s.env t)

theorem drawXfer_nil (s : State) (h : s.env.xferIn = []) :
    s.drawXfer = (Config.freeXfer s.env.draws, oneDraw s.env s) := by
  unfold State.drawXfer; rw [h]; rfl

theorem drawBusy_nil (s : State) (h : s.env.busyIn = []) :
    s.drawBusy = (Config.freeBusy s.env.draws, oneDraw s.env s) := by
  unfold State.drawBusy; rw [h]; rfl

/-- The one fixed transfer outcome is drawn and used up. -/
theorem drawXfer_withXfers (s : State) (r : Nat × Bool) (h : s.env.xferIn = []) :
    (withXfers s [r]).drawXfer = (r, s) := by
  rw [drawXfer_cons (withXfers s [r]) r [] rfl]
  simp only [withXfers, ← h]

/-- The one fixed busy sample is drawn and used up. -/
theorem drawBusy_withSamples (s : State) (b : Level) (h : s.env.busyIn = []) :
    (withSamples s [b]).drawBusy = (b, s) := by
  rw [drawBusy_cons (withSamples s [b]) b [] rfl]
  simp only [withSamples, ← h]

/-- A transfer with no fixed outcome is the transfer whose fixed outcome is the free value (R10), but for the counter. -/
theorem xfer_unfixed (s : State) (bytes : List Byte) (h : s.env.xferIn = []) :
    let x := (withXfers s [Config.freeXfer s.env.draws]).xfer bytes
    x.2.env = s.env ∧ s.xfer bytes = (x.1, oneDraw s.env x.2) := by
  unfold State.xfer
  rw [drawXfer_nil s h, drawXfer_withXfers s _ h]
  exact ⟨rfl, rfl⟩

theorem microXferOp_unfixed (op : Byte) (skip : Nat) (s : State) (h : s.env.xferIn = []) :
    ActsAsFixed s (microXferOp op skip (withXfers s [Config.freeXfer s.env.draws])) (microXferOp op skip s) := by
  obtain ⟨henv, hx⟩ := xfer_unfixed s [op] h
  refine ⟨_, rfl, henv, ?_⟩
  simp only [microXferOp, hx]; rfl

theorem microXferChunk_unfixed (src : Payload) (k skip : Nat) (s : State) (h : s.env.xferIn = []) :
    ActsAsFixed s (microXferChunk src k skip (withXfers s [Config.freeXfer s.env.draws])) (microXferChunk src k skip s) := by
  obtain ⟨henv, hx⟩ := xfer_unfixed s (payloadChunk s.cfg s.fb src k) h
  refine ⟨_, rfl, henv, ?_⟩
  simp only [microXferChunk, hx]; rfl

theorem microSampleBusy_unfixed (s : State) (h : s.env.busyIn = []) :
    ActsAsFixed s (microSampleBusy (withSamples s [Config.freeBusy s.env.draws])) (microSampleBusy s) := by
  unfold microSampleBusy
  rw [drawBusy_nil s h, drawBusy_withSamples s _ h]
  exact ⟨_, rfl, rfl, rfl⟩

/-- An instruction at a micro-step that acts as fixed acts as fixed itself: the fixed answers change neither `pc` nor the step
list, and no ENTRY, so no length check of DISPLAY, draws. -/
theorem exec_actsAsFixed {i : Instr} {s s' : State} {m : Micro} (hm : stepAt s.cfg i s.seq.pc = some m)
    (hentry : m ≠ .entry .display) (hcfg : s'.cfg = s.cfg) (hseq : s'.seq = s.seq)
    (h : ActsAsFixed s (runMicro m s') (runMicro m s)) : ActsAsFixed s (exec i s') (exec i s) := by
  have hm' : stepAt s'.cfg i s'.seq.pc = some m := by rw [hcfg, hseq, hm]
  have hs : exec i s = runMicro m s := (exec_at_micro i s m hm).resolve_right fun he => hentry he.1
  have hs' : exec i s' = runMicro m s' := (exec_at_micro i s' m hm').resolve_right fun he => hentry he.1
  rw [hs, hs']; exact h

/-- Settles O60: the free value at the counter is the fixed answer to take. -/
theorem unfixedDrawsActAsFixed : Obligations.UnfixedDrawsActAsFixed := by
  refine fun i s => ⟨fun hm hnil => ⟨Config.freeXfer s.env.draws, ?_⟩, fun hm hnil => ⟨Config.freeBusy s.env.draws, ?_⟩⟩
  · rcases hm with ⟨op, skip, hm⟩ | ⟨src, k, skip, hm⟩
    · exact exec_actsAsFixed hm nofun rfl rfl (microXferOp_unfixed op skip s hnil)
    · exact exec_actsAsFixed hm nofun rfl rfl (microXferChunk_unfixed src k skip s hnil)
  · exact exec_actsAsFixed hm nofun rfl rfl (microSampleBusy_unfixed s hnil)

end Sys2Proof.Proofs
end

section
/-! PROOFS. The family of spec/10_state.md: how a step list is walked, and what every step keeps of the locks, DSTATE, the
sequencers (O11, O15), the planes (O13), the trace (O14) and the sticky flags (O17, O19); what a step runs (O8). -/

namespace Sys2Proof.Proofs

open Sys2Proof.Machine Sys2Proof.Laws

/-! ## Where a micro-step leads, and the bus before and after it -/

/-- The level of CS at which the micro-step is taken with the bus lock held; none where it is taken without the lock. -/
def busNeeded (m : Micro) : Option Level := if m.inBus then some m.csBefore else none

/-- The level of CS the micro-step leaves with the bus lock held; none where it leaves the lock free. -/
def busLeft : Micro → Option Level
  | .acquire => some true
  | .release | .releaseCmd => none
  | .pin .cs lvl => some lvl
  | m => busNeeded m

/-- The micro-step `m` at `pc` `k` may go on to `pc` `k'` (10_state.md R21, log 22). -/
def GoesTo (m : Micro) (k k' : Nat) : Prop :=
  match m with
  | .exit _ | .respondSent | .ret | .drawEnd => False
  | .releaseCmd | .sampleBusy => k' = k + 1 ∨ k' = k + 2
  | .pollDelay => k' = k - 1
  | .xferOp _ skip | .xferChunk _ _ skip => k' = k + 1 ∨ k' = k + 1 + skip
  | .acquire | .release | .pin _ _ | .delay _ | .logXfer _ | .entry _ | .startRefresh | .openWindow | .closeWindow
  | .drawStart _ | .drawPixel _ _ => k' = k + 1

/-- Where a micro-step leads does not depend on what stands before its part of the list; only the poll delay goes back. -/
theorem goesTo_add {m : Micro} {a k k'' : Nat} (h : GoesTo m (a + k) k'') (hpoll : m = .pollDelay → 0 < k) :
    ∃ k', k'' = a + k' ∧ GoesTo m k k' := by
  refine ⟨k'' - a, ?_⟩
  cases m with
  | exit _ | respondSent | ret | drawEnd => cases h
  | releaseCmd | sampleBusy | xferOp _ _ | xferChunk _ _ _ => simp only [GoesTo] at h ⊢; omega
  | pollDelay => have := hpoll rfl; simp only [GoesTo] at h ⊢; omega
  | acquire | release | pin _ _ | delay _ | logXfer _ | entry _ | startRefresh | openWindow | closeWindow | drawStart _
  | drawPixel _ _ => simp only [GoesTo] at h ⊢; omega

/-! ## Lists that are walked from line to line -/

/-- The bus at place `k` of a list; beyond its end the lock is free. -/
def busAt (l : List Micro) (k : Nat) : Option Level := l[k]?.bind busNeeded

theorem busAt_append_left {l l' : List Micro} {k : Nat} (h : k < l.length) : busAt (l ++ l') k = busAt l k := by
  rw [busAt, List.getElem?_append_left h, busAt]

theorem busAt_append_right (l l' : List Micro) (k : Nat) : busAt (l ++ l') (l.length + k) = busAt l' k := by
  rw [busAt, List.getElem?_append_right (by omega), Nat.add_sub_cancel_left, busAt]

theorem busAt_length (l : List Micro) : busAt l l.length = none := by simp [busAt]

theorem busAt_of_getElem? {l : List Micro} {k : Nat} {m : Micro} (h : l[k]? = some m) : busAt l k = busNeeded m := by
  simp [busAt, h]

/-- The list is entered with the bus at `b` and left with the lock free, and each of its lines leads to a line, or to the
list's end, that finds the bus as this one leaves it. -/
structure Closed (b : Option Level) (l : List Micro) : Prop where
  starts : busAt l 0 = b
  goes : ∀ k m k', l[k]? = some m → GoesTo m k k' → k' ≤ l.length ∧ busAt l k' = busLeft m
  loops : ∀ k, l[k]? = some .pollDelay → 0 < k

theorem closed_nil : Closed none [] := ⟨rfl, nofun, nofun⟩

/-- A line of a closed list that stands after others leads to no line before the list. -/
theorem Closed.goesTo_add {b : Option Level} {l : List Micro} (h : Closed b l) {k a k'' : Nat} {m : Micro}
    (hm : l[k]? = some m) (hgo : GoesTo m (a + k) k'') : ∃ k', k'' = a + k' ∧ GoesTo m k k' :=
  Proofs.goesTo_add hgo fun hpoll => h.loops k (hpoll ▸ hm)

/-- Closed lists one after the other. -/
theorem Closed.append {b : Option Level} {l l' : List Micro} (h : Closed b l) (h' : Closed none l') :
    Closed b (l ++ l') where
  starts := by
    cases l with
    | nil => exact h'.starts.trans h.starts
    | cons m l => exact h.starts
  goes := by
    intro k m k' hm hgo
    rcases Nat.lt_or_ge k l.length with hk | hk
    · rw [List.getElem?_append_left hk] at hm
      obtain ⟨hle, hbus⟩ := h.goes k m k' hm hgo
      refine ⟨by rw [List.length_append]; omega, ?_⟩
      rcases Nat.lt_or_eq_of_le hle with hlt | rfl
      · rw [busAt_append_left hlt, hbus]
      · rw [← hbus, busAt_length]
        exact (busAt_append_right l l' 0).trans h'.starts
    · obtain ⟨j, rfl⟩ := Nat.exists_eq_add_of_le hk
      rw [List.getElem?_append_right hk, Nat.add_sub_cancel_left] at hm
      obtain ⟨j', rfl, hgo'⟩ := h'.goesTo_add hm hgo
      obtain ⟨hle, hbus⟩ := h'.goes j m j' hm hgo'
      exact ⟨by rw [List.length_append]; omega, by rw [busAt_append_right, hbus]⟩
  loops := by
    intro k hm
    rcases Nat.lt_or_ge k l.length with hk | hk
    · exact h.loops k (List.getElem?_append_left hk ▸ hm)
    · rw [List.getElem?_append_right hk] at hm
      have := h'.loops _ hm
      omega

/-- A line before a closed list, which leads into it. -/
theorem Closed.cons {b : Option Level} {l : List Micro} {m : Micro} (h : Closed b l) (hpoll : m ≠ .pollDelay)
    (hgo : ∀ k', GoesTo m 0 k' → k' ≤ l.length + 1 ∧ busAt (m :: l) k' = busLeft m) : Closed (busNeeded m) (m :: l) where
  starts := rfl
  goes := by
    intro k m' k' hm hgo'
    cases k with
    | zero => cases hm; exact hgo k' hgo'
    | succ j =>
      rw [Nat.add_comm] at hgo'
      obtain ⟨j', rfl, hgo''⟩ := h.goesTo_add hm hgo'
      obtain ⟨hle, hbus⟩ := h.goes j m' j' hm hgo''
      exact ⟨by rw [List.length_cons]; omega, (busAt_append_right [m] l j').trans hbus⟩
  loops := by
    intro k hm
    cases k with
    | zero => cases hm; exact absurd rfl hpoll
    | succ j => omega

/-- A line before a closed list that leads to its first line alone. -/
theorem Closed.cons_next {b : Option Level} {l : List Micro} (h : Closed b l) (m : Micro) (hleft : busLeft m = b)
    (hgo : ∀ k', GoesTo m 0 k' → k' = 1) : Closed (busNeeded m) (m :: l) := by
  refine h.cons (fun hpoll => ?_) fun k' hk => ?_
  · subst hpoll; cases hgo 0 rfl
  · cases hgo k' hk
    exact ⟨by omega, h.starts.trans hleft.symm⟩

/-- A closed list before a line that ends the request: no line leads beyond the end. -/
theorem Closed.lt_length {b : Option Level} {l : List Micro} {e : Micro} (h : Closed b l) (he : ∀ k k', ¬GoesTo e k k')
    {k k' : Nat} {m : Micro} (hm : (l ++ [e])[k]? = some m) (hgo : GoesTo m k k') : k' < (l ++ [e]).length := by
  rw [List.length_append, List.length_singleton]
  rcases Nat.lt_or_ge k l.length with hk | hk
  · rw [List.getElem?_append_left hk] at hm
    have := (h.goes k m k' hm hgo).1
    omega
  · rw [List.getElem?_append_right hk, List.getElem?_singleton] at hm
    split at hm
    · cases hm; exact absurd hgo (he _ _)
    · cases hm

/-! ## The parts a step list is made of -/

/-- The last lines of a logical command: DATA_BODY, then CS up, the lock's release and LOG_XFER. -/
def commandEnd (c : Cfg) (src : Payload) (what : LogWhat) : List Micro :=
  dataBody c src ++ [.pin .cs true, .releaseCmd, .logXfer what]

theorem dataBody_length (c : Cfg) (src : Payload) : (dataBody c src).length = nchunks c (payloadLen c src) := by
  simp [dataBody]

/-- The line of DATA_BODY at place `k`. -/
theorem dataBody_getElem? (c : Cfg) (src : Payload) {k : Nat} (h : k < nchunks c (payloadLen c src)) :
    (dataBody c src)[k]? = some (.xferChunk src k (nchunks c (payloadLen c src) - 1 - k)) := by
  simp [dataBody, h]

/-- From the first chunk to the drive of CS that ends the command the lock is held with CS at 0. -/
theorem busAt_commandEnd (c : Cfg) (src : Payload) (what : LogWhat) {k : Nat} (h : k ≤ nchunks c (payloadLen c src)) :
    busAt (commandEnd c src what) k = some false := by
  rcases Nat.lt_or_eq_of_le h with hlt | rfl
  · rw [commandEnd, busAt_append_left (by rwa [dataBody_length]), busAt_of_getElem? (dataBody_getElem? c src hlt)]
    rfl
  · rw [← dataBody_length]
    exact busAt_append_right (dataBody c src) _ 0

theorem closed_commandEnd (c : Cfg) (src : Payload) (what : LogWhat) : Closed (some false) (commandEnd c src what) where
  starts := busAt_commandEnd c src what (Nat.zero_le _)
  goes := by
    intro k m k' hm hgo
    have hn := dataBody_length c src
    have hlen : (commandEnd c src what).length = nchunks c (payloadLen c src) + 3 := by simp [commandEnd, hn]
    rcases Nat.lt_or_ge k (dataBody c src).length with hk | hk
    · rw [commandEnd, List.getElem?_append_left hk, dataBody_getElem? c src (hn ▸ hk)] at hm
      cases hm
      have hle : k' ≤ nchunks c (payloadLen c src) := by simp only [GoesTo] at hgo; omega
      exact ⟨by omega, busAt_commandEnd c src what hle⟩
    · obtain ⟨j, rfl⟩ := Nat.exists_eq_add_of_le hk
      rw [commandEnd, List.getElem?_append_right hk, Nat.add_sub_cancel_left] at hm
      have hlast : ∀ j', j' ≤ 3 → busAt [.pin .cs true, .releaseCmd, .logXfer what] j' = busLeft m →
          k' = (dataBody c src).length + j' →
          k' ≤ (commandEnd c src what).length ∧ busAt (commandEnd c src what) k' = busLeft m := by
        rintro j' hj hbus rfl
        exact ⟨by omega, (busAt_append_right _ _ j').trans hbus⟩
      match j, hm with
      | 0, hm => cases hm; exact hlast 1 (by omega) rfl hgo
      | 1, hm =>
        cases hm
        rcases hgo with hgo | hgo
        · exact hlast 2 (by omega) rfl hgo
        · exact hlast 3 (by omega) rfl hgo
      | 2, hm => cases hm; exact hlast 3 (by omega) rfl hgo
  loops := by
    intro k hm
    have := List.mem_of_getElem? hm
    simp [commandEnd, dataBody] at this

/-- A SEND_COMMAND: a failed opcode transfer leads past the payload (40_channel.md R124). -/
theorem closed_sendCommand (c : Cfg) (op : Byte) (src : Payload) : Closed none (sendCommand c op src) := by
  have hdc := (closed_commandEnd c src (.opcode op)).cons_next (.pin .dc true) rfl fun _ h => h
  have hop := hdc.cons (m := .xferOp op (1 + nchunks c (payloadLen c src))) (by simp) (by
    rintro k' (rfl | rfl)
    · exact ⟨by omega, rfl⟩
    · refine ⟨by simp [commandEnd, dataBody_length]; omega, ?_⟩
      rw [show 0 + 1 + (1 + nchunks c (payloadLen c src)) = 2 + nchunks c (payloadLen c src) by omega]
      exact (busAt_append_right [_, _] _ _).trans (busAt_commandEnd c src _ le_rfl))
  have hcs := (hop.cons_next (.pin .dc false) rfl fun _ h => h).cons_next (.pin .cs false) rfl fun _ h => h
  exact hcs.cons_next .acquire rfl fun _ h => h

/-- A SEND_DATA. -/
theorem closed_sendData (c : Cfg) (src : Payload) : Closed none (sendData c src) := by
  have hdc := (closed_commandEnd c src .data).cons_next (.pin .dc true) rfl fun _ h => h
  exact (hdc.cons_next (.pin .cs false) rfl fun _ h => h).cons_next .acquire rfl fun _ h => h

/-- One line that neither takes nor needs the bus lock. -/
theorem closed_line {m : Micro} (hgo : ∀ k', GoesTo m 0 k' → k' = 1) (hneed : busNeeded m = none)
    (hleft : busLeft m = none) : Closed none [m] :=
  hneed ▸ closed_nil.cons_next m hleft hgo

/-- The reset pulse holds the lock with CS at 1. -/
theorem closed_resetPulse : Closed none resetPulse := by
  have hup := ((closed_nil.cons_next .release rfl fun _ h => h).cons_next (.delay .rstH2) rfl fun _ h => h).cons_next
    (.pin .rst true) rfl fun _ h => h
  have hdown := (hup.cons_next (.delay .rstL) rfl fun _ h => h).cons_next (.pin .rst false) rfl fun _ h => h
  have hstart := (hdown.cons_next (.delay .rstH1) rfl fun _ h => h).cons_next (.pin .rst true) rfl fun _ h => h
  exact hstart.cons_next .acquire rfl fun _ h => h

/-- BUSY_WAIT loops back from its second line to its first, and needs no lock (41_protocol.md R155). -/
theorem closed_busyWait : Closed none busyWait where
  starts := rfl
  goes := by
    intro k m k' hm hgo
    match k, hm with
    | 0, hm => cases hm; rcases hgo with rfl | rfl <;> exact ⟨by decide, rfl⟩
    | 1, hm => cases hm; cases hgo; exact ⟨by decide, rfl⟩
    | 2, hm => cases hm; cases hgo; exact ⟨by decide, rfl⟩
  loops := by
    intro k hm
    rcases k with _ | k
    · cases hm
    · omega

/-- The lists between a request's first and last lines: logical commands, the reset pulse, waits, and the lines of the upload
window and the activation delay, one after another. -/
inductive Body (c : Cfg) : List Micro → Prop
  | command (op : Byte) (src : Payload) : Body c (sendCommand c op src)
  | data (src : Payload) : Body c (sendData c src)
  | pulse : Body c resetPulse
  | wait : Body c busyWait
  | act : Body c [.delay .act]
  | openWindow : Body c [.openWindow]
  | closeWindow : Body c [.closeWindow]
  | append {l l' : List Micro} (h : Body c l) (h' : Body c l') : Body c (l ++ l')

theorem Body.closed {c : Cfg} {l : List Micro} (h : Body c l) : Closed none l := by
  induction h with
  | command op src => exact closed_sendCommand c op src
  | data src => exact closed_sendData c src
  | pulse => exact closed_resetPulse
  | wait => exact closed_busyWait
  | act | openWindow | closeWindow => exact closed_line (fun _ h => h) rfl rfl
  | append _ _ ih ih' => exact ih.append ih'

/-- The micro-steps such a list may hold; a chunk's number is one of its payload's. -/
def InBody (c : Cfg) : Micro → Prop
  | .xferChunk src k _ => k < nchunks c (payloadLen c src)
  | .entry _ | .exit _ | .startRefresh | .respondSent | .ret | .drawStart _ | .drawPixel _ _ | .drawEnd => False
  | _ => True

theorem inBody_dataBody (c : Cfg) (src : Payload) : ∀ m ∈ dataBody c src, InBody c m := by
  intro m hm
  obtain ⟨k, hk, rfl⟩ := List.mem_map.mp hm
  exact List.mem_range.mp hk

theorem Body.inBody {c : Cfg} {l : List Micro} (h : Body c l) : ∀ m ∈ l, InBody c m := by
  induction h with
  | command op src =>
    simp only [sendCommand, List.forall_mem_append]
    exact ⟨⟨by simp [InBody], inBody_dataBody c src⟩, by simp [InBody]⟩
  | data src =>
    simp only [sendData, List.forall_mem_append]
    exact ⟨⟨by simp [InBody], inBody_dataBody c src⟩, by simp [InBody]⟩
  | pulse => simp [resetPulse, InBody]
  | wait => simp [busyWait, InBody]
  | act | openWindow | closeWindow => simp [InBody]
  | append _ _ ih ih' => exact List.forall_mem_append.mpr ⟨ih, ih'⟩

theorem body_initSeq (c : Cfg) : Body c (initSeq c) := by
  have row (op : Byte) (src : Payload) : Body c (sendCommand c op src) := .command op src
  exact (((((((((((((((((row _ _).append .wait).append (row _ _)).append .wait).append (row _ _)).append .wait).append
    (row _ _)).append (row _ _)).append (row _ _)).append (row _ _)).append (row _ _)).append (row _ _)).append
    (row _ _)).append (row _ _)).append (row _ _)).append .wait).append (row _ _)).append (row _ _)

theorem body_upload (c : Cfg) (srcB srcH : Payload) : Body c (uploadSteps c srcB srcH) :=
  ((Body.command _ _).append (.command _ _)).append (.command _ _)

/-- DISPLAY_FB's upload, with the lines of its window (41_protocol.md R165). -/
theorem body_uploadFb (c : Cfg) : Body c (wRamyCounterSteps c c.pRamyOrigin ++ [.openWindow] ++
    wWriteBwSteps c (.plane .black) ++ wWriteHlSteps c (.plane .hl) ++ [.closeWindow]) :=
  ((((Body.command _ _).append .openWindow).append (.command _ _)).append (.command _ _)).append .closeWindow

/-- REFRESH after its first line. -/
theorem body_refresh (c : Cfg) :
    Body c (wUpdateCtrl2Steps c [c.pRefreshMode] ++ wMasterActSteps c ++ [.delay .act] ++ busyWait) :=
  (((Body.command _ _).append (.command _ _)).append .act).append .wait

/-! ## The step list of each instruction -/

/-- The shape of a step list: no list; a channel request's or a wire command's; INIT's; SLEEP's; or that of the requests
that upload and refresh. -/
inductive StepShape (c : Cfg) (i : Instr) : Prop
  | none (hproto : isProtocol i = false) (h : stepList c i = [])
  | channel (hproto : isProtocol i = false) {l : List Micro} {e : Micro} (hl : Body c l) (he : e = .respondSent ∨ e = .ret)
      (h : stepList c i = l ++ [e])
  | init (hi : i = .init) {l : List Micro} (hl : Body c l) (h : stepList c i = .entry .init :: (l ++ [.exit .init]))
  | sleep (hi : i = .sleep) {l : List Micro} (hl : Body c l) (h : stepList c i = .entry .sleep :: (l ++ [.exit .sleep]))
  | display (hproto : isProtocol i = true) (hinit : i ≠ .init) (hsleep : i ≠ .sleep) {l l' : List Micro}
      (hl : Body c l) (hl' : Body c l')
      (h : stepList c i = .entry .display :: l ++ (.startRefresh :: (l' ++ [.exit .display])))

theorem stepShape (c : Cfg) (i : Instr) : StepShape c i := by
  cases i with
  | status | fbSet _ _ _ | fbGet _ _ | fbClear | fbDraw _ => exact .none rfl rfl
  | init => exact .init rfl (Body.pulse.append (body_initSeq c)) (by simp [stepList, initSteps])
  | sleep => exact .sleep rfl (.command _ _) rfl
  | display _ _ | clear =>
    exact .display rfl nofun nofun (body_upload c _ _) (body_refresh c) (by simp [stepList, displaySteps, refreshSteps]; rfl)
  | displayFb =>
    exact .display rfl nofun nofun (body_uploadFb c) (body_refresh c) (by simp [stepList, displayFbSteps, refreshSteps])
  | chCmd op payload => exact .channel rfl (.command _ _) (.inl rfl) rfl
  | chData payload => exact .channel rfl (.data _) (.inl rfl) rfl
  | wSwreset | wAutowriteHl _ | wAutowriteBw _ | wSoftstart _ | wGate _ | wDataEntry _ | wRamxWindow _ | wRamyWindow _
  | wBorder _ | wTempSensor _ | wUpdateCtrl2 _ | wMasterAct | wWriteBw _ | wWriteHl _ | wRamxCounter _ | wRamyCounter _
  | wDeepSleep => exact .channel rfl (.command _ _) (.inr rfl) rfl

/-- The step list as `stepAt` reads it, for every instruction but FB_DRAW. -/
theorem stepAt_eq (c : Cfg) (i : Instr) (pc : Nat) (h : ∀ src, i ≠ .fbDraw src) : stepAt c i pc = (stepList c i)[pc]? := by
  cases i with
  | fbDraw src => exact absurd rfl (h src)
  | init | display _ _ | displayFb | clear | sleep | status | fbSet _ _ _ | fbGet _ _ | fbClear | chCmd _ _ | chData _
  | wSwreset | wAutowriteHl _ | wAutowriteBw _ | wSoftstart _ | wGate _ | wDataEntry _ | wRamxWindow _ | wRamyWindow _
  | wBorder _ | wTempSensor _ | wUpdateCtrl2 _ | wMasterAct | wWriteBw _ | wWriteHl _ | wRamxCounter _ | wRamyCounter _
  | wDeepSleep => rfl

/-- A protocol request's micro-steps are those of its step list. -/
theorem stepAt_protocol {c : Cfg} {i : Instr} (h : isProtocol i = true) (pc : Nat) :
    stepAt c i pc = (stepList c i)[pc]? :=
  stepAt_eq c i pc fun src hi => by subst hi; cases h

/-- FB_DRAW's micro-steps: START, the pixels of the panel, END (43_framebuffer.md R236). -/
theorem drawStepAt_cases {c : Cfg} {src : Source} {pc : Nat} {m : Micro} (h : drawStepAt c src pc = some m) :
    (pc = 0 ∧ m = .drawStart src) ∨ (0 < pc ∧ pc ≤ c.width * c.height ∧ m = .drawPixel src (pc - 1)) ∨
    (pc = c.width * c.height + 1 ∧ m = .drawEnd) := by
  unfold drawStepAt at h
  split_ifs at h with h0 hpix hend <;> cases h
  · exact .inl ⟨h0, rfl⟩
  · exact .inr (.inl ⟨by omega, hpix, rfl⟩)
  · exact .inr (.inr ⟨hend, rfl⟩)

/-- FB_DRAW has a micro-step up to its END, and none of them needs the bus lock. -/
theorem drawStepAt_of_le {c : Cfg} {src : Source} {pc : Nat} (h : pc ≤ c.width * c.height + 1) :
    ∃ m, drawStepAt c src pc = some m ∧ busNeeded m = none := by
  unfold drawStepAt
  split_ifs with h0 hpix hend
  · exact ⟨_, rfl, rfl⟩
  · exact ⟨_, rfl, rfl⟩
  · exact ⟨_, rfl, rfl⟩
  · omega

/-! ### Which micro-steps an instruction has -/

theorem mem_ends {c : Cfg} {l : List Micro} (h : Body c l) {e m : Micro} (hm : m ∈ l ++ [e]) : InBody c m ∨ m = e := by
  rcases List.mem_append.mp hm with hm | hm
  · exact .inl (h.inBody m hm)
  · exact .inr (List.mem_singleton.mp hm)

/-- The micro-steps of a protocol request. -/
theorem protocol_micro {c : Cfg} {i : Instr} {pc : Nat} {m : Micro} (hproto : isProtocol i = true)
    (hm : stepAt c i pc = some m) : InBody c m ∨ m = .startRefresh ∨ (∃ k, m = .entry k) ∨ ∃ k, m = .exit k := by
  rw [stepAt_protocol hproto] at hm
  have hmem := List.mem_of_getElem? hm
  cases stepShape c i with
  | none h | channel h => simp [h] at hproto
  | init _ hl h | sleep _ hl h =>
    rw [h] at hmem
    rcases List.mem_cons.mp hmem with rfl | hmem
    · exact .inr (.inr (.inl ⟨_, rfl⟩))
    · rcases mem_ends hl hmem with hb | rfl
      · exact .inl hb
      · exact .inr (.inr (.inr ⟨_, rfl⟩))
  | display _ _ _ hl hl' h =>
    rw [h] at hmem
    rcases List.mem_append.mp hmem with hmem | hmem
    · rcases List.mem_cons.mp hmem with rfl | hmem
      · exact .inr (.inr (.inl ⟨_, rfl⟩))
      · exact .inl (hl.inBody m hmem)
    · rcases List.mem_cons.mp hmem with rfl | hmem
      · exact .inr (.inl rfl)
      · rcases mem_ends hl' hmem with hb | rfl
        · exact .inl hb
        · exact .inr (.inr (.inr ⟨_, rfl⟩))

/-- The micro-steps of a channel request or a wire command. -/
theorem channel_micro {c : Cfg} {i : Instr} {pc : Nat} {m : Micro} (hproto : isProtocol i = false)
    (hdraw : ∀ src, i ≠ .fbDraw src) (hm : stepAt c i pc = some m) : InBody c m ∨ m = .respondSent ∨ m = .ret := by
  rw [stepAt_eq c i pc hdraw] at hm
  have hmem := List.mem_of_getElem? hm
  cases stepShape c i with
  | none _ h => simp [h] at hmem
  | channel _ hl he h =>
    rcases mem_ends hl (h ▸ hmem) with hb | rfl
    · exact .inl hb
    · exact .inr he
  | init hi | sleep hi => subst hi; cases hproto
  | display h => simp [h] at hproto

/-- The micro-steps of every instruction that is no protocol request. -/
theorem other_micro {c : Cfg} {i : Instr} {pc : Nat} {m : Micro} (hproto : isProtocol i = false)
    (hm : stepAt c i pc = some m) : InBody c m ∨ m = .respondSent ∨ m = .ret ∨ (∃ src, m = .drawStart src) ∨
      (∃ src k, m = .drawPixel src k) ∨ m = .drawEnd := by
  by_cases hdraw : ∃ src, i = .fbDraw src
  · obtain ⟨src, rfl⟩ := hdraw
    rcases drawStepAt_cases hm with ⟨-, rfl⟩ | ⟨-, -, rfl⟩ | ⟨-, rfl⟩
    · exact .inr (.inr (.inr (.inl ⟨_, rfl⟩)))
    · exact .inr (.inr (.inr (.inr (.inl ⟨_, _, rfl⟩))))
    · exact .inr (.inr (.inr (.inr (.inr rfl))))
  · rcases channel_micro hproto (fun src h => hdraw ⟨src, h⟩) hm with h | h | h
    · exact .inl h
    · exact .inr (.inl h)
    · exact .inr (.inr (.inl h))

/-- ENTRY stands only in the protocol requests (41_protocol.md R153). -/
theorem isProtocol_of_entry {c : Cfg} {i : Instr} {pc : Nat} {k : Proto} (h : stepAt c i pc = some (.entry k)) :
    isProtocol i = true := by
  by_contra hn
  simpa [InBody] using other_micro (by simpa using hn) h

/-- The first step of REFRESH stands only in the protocol requests (R163). -/
theorem isProtocol_of_startRefresh {c : Cfg} {i : Instr} {pc : Nat} (h : stepAt c i pc = some .startRefresh) :
    isProtocol i = true := by
  by_contra hn
  simpa [InBody] using other_micro (by simpa using hn) h

/-- A chunk sent is one of its payload's (40_channel.md R121). -/
theorem chunk_lt {c : Cfg} {i : Instr} {pc k skip : Nat} {src : Payload}
    (h : stepAt c i pc = some (.xferChunk src k skip)) : k < nchunks c (payloadLen c src) := by
  cases hp : isProtocol i with
  | true => exact (protocol_micro hp h).resolve_right (by simp)
  | false => exact (other_micro hp h).resolve_right (by simp)

/-! ### How a step list is walked -/

/-- A protocol request's list after its ENTRY, which no line leaves backwards. -/
theorem protocol_tail {i : Instr} (c : Cfg) (h : isProtocol i = true) :
    ∃ k l, stepList c i = .entry k :: l ∧ Closed none l := by
  have hexit (k : Proto) : Closed none [.exit k] := closed_line nofun rfl rfl
  cases stepShape c i with
  | none h' | channel h' => simp [h'] at h
  | init _ hl h' | sleep _ hl h' => exact ⟨_, _, h', hl.closed.append (hexit _)⟩
  | display _ _ _ hl hl' h' =>
    have hrefresh : Closed none (.startRefresh :: (_ ++ [.exit .display])) :=
      (hl'.closed.append (hexit .display)).cons_next .startRefresh rfl fun _ h => h
    exact ⟨_, _, h', hl.closed.append hrefresh⟩

/-- A protocol request starts with its ENTRY. -/
theorem protocol_starts {i : Instr} (c : Cfg) (h : isProtocol i = true) : ∃ k, stepAt c i 0 = some (.entry k) := by
  obtain ⟨k, l, hlist, -⟩ := protocol_tail c h
  exact ⟨k, by rw [stepAt_protocol h, hlist]; rfl⟩

/-- Every list is walked from line to line, and every line that leads on leads to a line. -/
theorem stepList_closed (c : Cfg) (i : Instr) : Closed none (stepList c i) ∧
    ∀ k m k', (stepList c i)[k]? = some m → GoesTo m k k' → k' < (stepList c i).length := by
  have hentry {l : List Micro} (k : Proto) (hl : Closed none l) : Closed none (.entry k :: l) :=
    hl.cons_next (.entry k) rfl fun _ h => h
  have hlast {l : List Micro} {e : Micro} (hl : Closed none l) (hneed : busNeeded e = none)
      (he : ∀ k k', ¬GoesTo e k k') : Closed none (l ++ [e]) ∧
        ∀ k m k', (l ++ [e])[k]? = some m → GoesTo m k k' → k' < (l ++ [e]).length :=
    ⟨hl.append (hneed ▸ closed_nil.cons (by rintro rfl; exact he 0 0 rfl) fun k' hgo => absurd hgo (he 0 k')),
      fun _ _ _ => hl.lt_length he⟩
  cases stepShape c i with
  | none _ h => rw [h]; exact ⟨closed_nil, nofun⟩
  | channel _ hl he h => rw [h]; rcases he with rfl | rfl <;> exact hlast hl.closed rfl nofun
  | init _ hl h | sleep _ hl h => rw [h]; exact hlast (hentry _ hl.closed) rfl nofun
  | @display _ _ _ l l' hl hl' h =>
    have hrefresh : Closed none (.startRefresh :: l') := hl'.closed.cons_next .startRefresh rfl fun _ h => h
    have hall := hlast (e := .exit .display) ((hentry .display hl.closed).append hrefresh) rfl nofun
    rw [h, show Micro.entry .display :: l ++ .startRefresh :: (l' ++ [.exit .display]) =
      Micro.entry .display :: l ++ .startRefresh :: l' ++ [.exit .display] by simp]
    exact hall

/-- Where a micro-step leads there is a micro-step, and it finds the bus as this one leaves it. -/
theorem stepAt_goesTo {c : Cfg} {i : Instr} {pc pc' : Nat} {m : Micro} (hm : stepAt c i pc = some m)
    (hgo : GoesTo m pc pc') : ∃ m', stepAt c i pc' = some m' ∧ busNeeded m' = busLeft m := by
  by_cases hdraw : ∃ src, i = .fbDraw src
  · obtain ⟨src, rfl⟩ := hdraw
    rcases drawStepAt_cases hm with ⟨h0, rfl⟩ | ⟨-, hpc, rfl⟩ | ⟨-, rfl⟩
    · exact drawStepAt_of_le (by cases hgo; omega)
    · exact drawStepAt_of_le (by cases hgo; omega)
    · cases hgo
  · have hlist pc := stepAt_eq c i pc fun src h => hdraw ⟨src, h⟩
    rw [hlist] at hm
    obtain ⟨hclosed, hlt⟩ := stepList_closed c i
    have hm' := List.getElem?_eq_getElem (hlt pc m pc' hm hgo)
    exact ⟨_, (hlist pc').trans hm', (busAt_of_getElem? hm').symm.trans (hclosed.goes pc m pc' hm hgo).2⟩

/-- A protocol request does not come back to its ENTRY. -/
theorem protocol_goesTo_pos {c : Cfg} {i : Instr} {pc pc' : Nat} {m : Micro} (hproto : isProtocol i = true)
    (hm : stepAt c i pc = some m) (hgo : GoesTo m pc pc') : 0 < pc' := by
  obtain ⟨k, l, hlist, hclosed⟩ := protocol_tail c hproto
  rw [stepAt_protocol hproto, hlist] at hm
  cases pc with
  | zero => cases hm; cases hgo; omega
  | succ j =>
    rw [Nat.add_comm] at hgo
    obtain ⟨j', rfl, -⟩ := hclosed.goesTo_add hm hgo
    omega

/-! ### Where REFRESH starts -/

theorem Body.startRefresh_not_mem {c : Cfg} {l : List Micro} (h : Body c l) : Micro.startRefresh ∉ l :=
  fun hm => h.inBody _ hm

/-- A line of a list with the first step of REFRESH in it. -/
theorem getElem?_around {a b : List Micro} {pc : Nat} {m : Micro} (h : (a ++ .startRefresh :: b)[pc]? = some m) :
    (pc < a.length ∧ a[pc]? = some m) ∨ (pc = a.length ∧ m = .startRefresh) ∨
    ∃ j, pc = a.length + 1 + j ∧ b[j]? = some m := by
  rcases Nat.lt_or_ge pc a.length with hlt | hge
  · exact .inl ⟨hlt, List.getElem?_append_left hlt ▸ h⟩
  · obtain ⟨j, rfl⟩ := Nat.exists_eq_add_of_le hge
    rw [List.getElem?_append_right hge, Nat.add_sub_cancel_left] at h
    cases j with
    | zero => cases h; exact .inr (.inl ⟨rfl, rfl⟩)
    | succ j => exact .inr (.inr ⟨j, by omega, h⟩)

/-- The first step of REFRESH is still to come up to its own place. -/
theorem startRefresh_mem_drop {a b : List Micro} (hb : Micro.startRefresh ∉ b) (k : Nat) :
    Micro.startRefresh ∈ (a ++ .startRefresh :: b).drop k ↔ k ≤ a.length := by
  rcases Nat.lt_or_ge a.length k with hk | hk
  · obtain ⟨j, rfl⟩ := Nat.exists_eq_add_of_lt hk
    rw [show a.length + j + 1 = a.length + (j + 1) by omega, List.drop_length_add_append, List.drop_succ_cons]
    exact iff_of_false (fun hm => hb (List.mem_of_mem_drop hm)) (by omega)
  · rw [List.drop_append_of_le_length hk]
    exact iff_of_true (by simp) hk

/-- A request that uploads and refreshes: what stands before and after the first step of REFRESH. -/
structure DisplayList (c : Cfg) (i : Instr) (a b : List Micro) : Prop where
  list : stepList c i = a ++ .startRefresh :: b
  before : Closed none a
  after : Closed none b
  notBefore : ∀ m ∈ a, m = .entry .display ∨ InBody c m
  notAfter : ∀ m ∈ b, m = .exit .display ∨ InBody c m
  dstate : ∀ pc d, dstateAt c i pc d ↔ d = if pc ≤ a.length then DState.uploading else .refreshing

/-- The protocol requests by their rows of 41_protocol.md R151. -/
theorem protocol_kinds {i : Instr} (c : Cfg) (h : isProtocol i = true) :
    (i = .init ∧ ∃ l, Body c l ∧ stepList c i = .entry .init :: (l ++ [.exit .init])) ∨
    (i = .sleep ∧ ∃ l, Body c l ∧ stepList c i = .entry .sleep :: (l ++ [.exit .sleep])) ∨
    ∃ a b, DisplayList c i a b := by
  cases stepShape c i with
  | none h' | channel h' => simp [h'] at h
  | init hi hl h' => exact .inl ⟨hi, _, hl, h'⟩
  | sleep hi hl h' => exact .inr (.inl ⟨hi, _, hl, h'⟩)
  | @display _ hinit hsleep l l' hl hl' h' =>
    have ha : ∀ m ∈ Micro.entry .display :: l, m = .entry .display ∨ InBody c m := fun m hm =>
      (List.mem_cons.mp hm).imp_right (hl.inBody m)
    have hb : ∀ m ∈ l' ++ [.exit .display], m = .exit .display ∨ InBody c m := fun m hm => (mem_ends hl' hm).symm
    have hnb : Micro.startRefresh ∉ l' ++ [.exit .display] := fun hm => by rcases hb _ hm with h | h <;> cases h
    refine .inr (.inr ⟨_, _, h', hl.closed.cons_next (.entry .display) rfl fun _ h => h,
      hl'.closed.append (closed_line nofun rfl rfl), ha, hb, fun pc d => ?_⟩)
    simp only [dstateAt, if_neg hinit, if_neg hsleep, h', startRefresh_mem_drop hnb]
    split <;> rfl

/-- INIT and SLEEP have no REFRESH. -/
theorem startRefresh_not_mem {c : Cfg} {l : List Micro} (h : Body c l) (k : Proto) :
    Micro.startRefresh ∉ Micro.entry k :: (l ++ [.exit k]) := by
  intro hm
  rcases List.mem_cons.mp hm with h' | hm
  · cases h'
  · rcases mem_ends h hm with h' | h' <;> cases h'

/-- INIT and SLEEP have one EXIT, their own. -/
theorem exit_kind {c : Cfg} {l : List Micro} (h : Body c l) {k k' : Proto}
    (hm : Micro.exit k ∈ Micro.entry k' :: (l ++ [.exit k'])) : k = k' := by
  rcases List.mem_cons.mp hm with h' | hm
  · cases h'
  · rcases mem_ends h hm with h' | h' <;> cases h'
    rfl

/-! ### DSTATE along a protocol request (41_protocol.md R151) -/

/-- After an allowed ENTRY DSTATE is what the request's row says. -/
theorem dstateAt_entry {c : Cfg} {i : Instr} {k : Proto} {d : DState} (h : stepAt c i 0 = some (.entry k))
    (hallowed : allowedFrom k d = true) : dstateAt c i 1 (entryState k d) := by
  have hproto := isProtocol_of_entry h
  rw [stepAt_protocol hproto] at h
  rcases protocol_kinds c hproto with ⟨rfl, l, -, hlist⟩ | ⟨rfl, l, -, hlist⟩ | ⟨a, b, hd⟩
  · rw [hlist] at h; cases h; rfl
  · rw [hlist] at h; cases h
    simpa [dstateAt, entryState, allowedFrom] using hallowed
  · rw [hd.list] at h
    rcases getElem?_around h with ⟨hlt, h⟩ | ⟨-, h⟩ | ⟨j, hj, -⟩
    · rcases hd.notBefore _ (List.mem_of_getElem? h) with h | h
      · cases h; exact (hd.dstate 1 _).mpr (if_pos hlt).symm
      · cases h
    · cases h
    · omega

/-- The first step of REFRESH takes DSTATE from UPLOADING to REFRESHING. -/
theorem dstateAt_startRefresh {c : Cfg} {i : Instr} {pc : Nat} (h : stepAt c i pc = some .startRefresh) :
    (∀ d, dstateAt c i pc d → d = .uploading) ∧ dstateAt c i (pc + 1) .refreshing := by
  have hproto := isProtocol_of_startRefresh h
  rw [stepAt_protocol hproto] at h
  rcases protocol_kinds c hproto with ⟨-, l, hl, hlist⟩ | ⟨-, l, hl, hlist⟩ | ⟨a, b, hd⟩
  · exact absurd (hlist ▸ List.mem_of_getElem? h) (startRefresh_not_mem hl _)
  · exact absurd (hlist ▸ List.mem_of_getElem? h) (startRefresh_not_mem hl _)
  · rw [hd.list] at h
    rcases getElem?_around h with ⟨-, h⟩ | ⟨rfl, -⟩ | ⟨j, -, h⟩
    · rcases hd.notBefore _ (List.mem_of_getElem? h) with h | h <;> cases h
    · exact ⟨fun d hdst => ((hd.dstate _ d).mp hdst).trans (if_pos le_rfl), (hd.dstate _ _).mpr (if_neg (by omega)).symm⟩
    · rcases hd.notAfter _ (List.mem_of_getElem? h) with h | h <;> cases h

/-- No other line between ENTRY and EXIT passes the first step of REFRESH. -/
theorem dstateAt_goesTo {c : Cfg} {i : Instr} {pc pc' : Nat} {m : Micro} {d : DState} (hproto : isProtocol i = true)
    (hm : stepAt c i pc = some m) (hgo : GoesTo m pc pc') (hne : m ≠ .startRefresh) (h : dstateAt c i pc d) :
    dstateAt c i pc' d := by
  rw [stepAt_protocol hproto] at hm
  rcases protocol_kinds c hproto with ⟨rfl, -⟩ | ⟨rfl, -⟩ | ⟨a, b, hd⟩
  · exact h
  · exact h
  · have hsame : pc' ≤ a.length ↔ pc ≤ a.length := by
      rcases getElem?_around (hd.list ▸ hm) with ⟨hlt, hline⟩ | ⟨-, rfl⟩ | ⟨j, rfl, hline⟩
      · exact iff_of_true (hd.before.goes pc m pc' hline hgo).1 (by omega)
      · exact absurd rfl hne
      · obtain ⟨j', rfl, -⟩ := hd.after.goesTo_add hline hgo
        exact iff_of_false (by omega) (by omega)
    rw [hd.dstate] at h ⊢
    rw [h, if_congr hsame rfl rfl]

/-- At the EXIT of an allowed request its end state is a move that R151 allows. -/
theorem dstateAt_exit {c : Cfg} {i : Instr} {pc : Nat} {k : Proto} {d : DState} (h : stepAt c i pc = some (.exit k))
    (hdst : dstateAt c i pc d) : dstateMove d (endState k) = true := by
  have hproto := isProtocol_of_exit c i pc k h
  rw [stepAt_protocol hproto] at h
  rcases protocol_kinds c hproto with ⟨rfl, l, hl, hlist⟩ | ⟨rfl, l, hl, hlist⟩ | ⟨a, b, hd⟩
  · cases exit_kind hl (hlist ▸ List.mem_of_getElem? h)
    cases hdst; rfl
  · cases exit_kind hl (hlist ▸ List.mem_of_getElem? h)
    rcases hdst with rfl | rfl <;> rfl
  · rcases getElem?_around (hd.list ▸ h) with ⟨-, hline⟩ | ⟨-, hline⟩ | ⟨j, rfl, hline⟩
    · rcases hd.notBefore _ (List.mem_of_getElem? hline) with h | h <;> cases h
    · cases hline
    · rcases hd.notAfter _ (List.mem_of_getElem? hline) with h | h <;> cases h
      rw [hd.dstate, if_neg (by omega)] at hdst
      subst hdst; rfl

/-- An allowed ENTRY from rest moves DSTATE as R151 allows, or not at all. -/
theorem dstateMove_entry {k : Proto} {d : DState} (hallowed : allowedFrom k d = true) (hrest : d.resting = true)
    (hne : entryState k d ≠ d) : dstateMove d (entryState k d) = true := by
  cases k with
  | init =>
    cases d with
    | uninitialized | idle | asleep => rfl
    | configuring | uploading | refreshing => cases hrest
  | display => simp only [allowedFrom, decide_eq_true_eq] at hallowed; subst hallowed; rfl
  | sleep => exact absurd rfl hne

theorem resting_endState (k : Proto) : (endState k).resting = true := by cases k <;> rfl

/-! ## The running port and the locks in one micro-step -/

/-- The level of CS where port `p` holds the bus lock; none where it does not. -/
def busSeen (s : State) (p : Nat) : Option Level := if s.busOwner = some p then some s.pins.cs else none

theorem busSeen_eq_none {s : State} {p : Nat} : busSeen s p = none ↔ s.busOwner ≠ some p := by simp [busSeen]

/-- A micro-step finds the bus as it needs it when the lock and CS are what the invariant says. -/
theorem busNeeded_eq_busSeen {s : State} {p : Nat} {m : Micro} : busNeeded m = busSeen s p ↔
    (s.busOwner = some p ↔ m.inBus = true) ∧ (m.inBus = true → s.pins.cs = m.csBefore) := by
  by_cases ho : s.busOwner = some p <;> by_cases hm : m.inBus = true <;> simp [busNeeded, busSeen, ho, hm, eq_comm]

/-- Port `p`, at `q` of instruction `i`, and the FSM (20_memory.md R75; 41_protocol.md R152). -/
structure FsmAgrees (s : State) (p : Nat) (i : Instr) (q : Seq) : Prop where
  owner : s.fsmOwner = some p ↔ (isProtocol i = true ∧ 0 < q.pc)
  fresh : isProtocol i = true → q.pc = 0 → q.sq = false
  rest : isProtocol i = true → q.sq = true → s.dstate.resting = true

theorem portInv_busy_iff {s : State} {p : Nat} {i : Instr} (hop : (s.portAt p).seq.op = .busy i) :
    portInv s p ↔ ∃ m, stepAt s.cfg i (s.portAt p).seq.pc = some m ∧ busNeeded m = busSeen s p ∧
      FsmAgrees s p i (s.portAt p).seq := by
  simp only [portInv, hop, busNeeded_eq_busSeen]
  refine exists_congr fun m => and_congr_right fun _ => ?_
  exact ⟨fun ⟨h1, h2, h3, h4, h5⟩ => ⟨⟨h1, h2⟩, h3, h4, h5⟩, fun ⟨⟨h1, h2⟩, h3, h4, h5⟩ => ⟨h1, h2, h3, h4, h5⟩⟩

/-- The port has no request in progress, or takes no further step. -/
def Ended (q : Seq) : Prop := q.op = .idle ∨ q.op = .stopped

theorem portInv_ended_iff {s : State} {p : Nat} (h : Ended (s.portAt p).seq) :
    portInv s p ↔ s.busOwner ≠ some p ∧ s.fsmOwner ≠ some p := by
  rcases h with h | h <;> simp only [portInv, h]

/-- A lock's owner after a step of port `p`: the same, or `p` took or released the lock. -/
def OwnerMoves (p : Nat) (o o' : Option Nat) : Prop := o' = o ∨ (o = none ∧ o' = some p) ∨ (o = some p ∧ o' = none)

theorem OwnerMoves.other {p r : Nat} {o o' : Option Nat} (h : OwnerMoves p o o') (hr : r ≠ p) :
    o' = some r ↔ o = some r := by
  rcases h with rfl | ⟨rfl, rfl⟩ | ⟨rfl, rfl⟩ <;> simp [hr.symm]

theorem OwnerMoves.of_some {p r : Nat} {o o' : Option Nat} (h : OwnerMoves p o o') (hr : o' = some r) :
    o = some r ∨ r = p := by
  rcases h with rfl | ⟨rfl, rfl⟩ | ⟨rfl, rfl⟩
  · exact .inl hr
  · cases hr; exact .inr rfl
  · cases hr

/-- What a step of the running port, which leaves it the record `q`, does to the rest of the block: it moves the locks for
itself alone, CS only while it holds the bus, and DSTATE only while it owns the FSM or as it takes it. -/
structure PortStep (s t : State) (q : Port) : Prop where
  cur : t.cur = s.cur
  cfg : t.cfg = s.cfg
  palette : t.roleRgb = s.roleRgb
  ports : t.ports = s.ports.set s.cur q
  bus : OwnerMoves s.cur s.busOwner t.busOwner
  cs : s.busOwner ≠ some s.cur → t.pins.cs = s.pins.cs
  fsm : OwnerMoves s.cur s.fsmOwner t.fsmOwner
  dstate : t.dstate ≠ s.dstate → s.fsmOwner = some s.cur ∨ (s.fsmOwner = none ∧ t.fsmOwner = some s.cur)

theorem PortStep.length {s t : State} {q : Port} (h : PortStep s t q) : t.ports.length = s.ports.length := by
  rw [h.ports, List.length_set]

theorem PortStep.portAt_cur {s t : State} {q : Port} (h : PortStep s t q) (hcur : s.curOk) : t.portAt s.cur = q := by
  rw [State.portAt, h.ports]; exact getD_set_self _ _ _ _ hcur

theorem PortStep.portAt_other {s t : State} {q : Port} (h : PortStep s t q) {p : Nat} (hp : p ≠ s.cur) :
    t.portAt p = s.portAt p := by
  rw [State.portAt, h.ports]; exact getD_set_other _ _ _ _ _ hp.symm

/-- A port that owns the FSM sees DSTATE stay at another port's step. -/
theorem PortStep.dstate_of_owner {s t : State} {q : Port} (h : PortStep s t q) {p : Nat} (hp : p ≠ s.cur)
    (hown : s.fsmOwner = some p) : t.dstate = s.dstate := by
  by_contra hne
  rcases h.dstate hne with h' | ⟨h', -⟩
  · exact hp (Option.some.inj (hown.symm.trans h'))
  · cases hown.symm.trans h'

/-- Another port agrees with the locks after the step as before it. -/
theorem PortStep.portInv_other {s t : State} {q : Port} (h : PortStep s t q) {p : Nat} (hp : p ≠ s.cur)
    (hinv : portInv s p) : portInv t p := by
  have hport := h.portAt_other hp
  have hbus := h.bus.other hp
  have hfsm := h.fsm.other hp
  have hseen : busSeen t p = busSeen s p := by
    by_cases ho : s.busOwner = some p
    · have hcs := h.cs fun hc => hp (Option.some.inj (ho.symm.trans hc))
      simp [busSeen, ho, hbus.mpr ho, hcs]
    · rw [busSeen_eq_none.mpr ho, busSeen_eq_none.mpr (mt hbus.mp ho)]
  rcases hop : (s.portAt p).seq.op with _ | i | _
  · rw [portInv_ended_iff (.inl hop)] at hinv
    rw [portInv_ended_iff (hport ▸ .inl hop)]
    exact ⟨mt hbus.mp hinv.1, mt hfsm.mp hinv.2⟩
  · obtain ⟨m, hm, hneed, ⟨howner, hfresh, hrest⟩⟩ := (portInv_busy_iff hop).mp hinv
    refine (portInv_busy_iff (hport ▸ hop)).mpr ⟨m, by rw [hport, h.cfg, hm], by rw [hneed, hseen], ?_⟩
    rw [hport]
    refine ⟨hfsm.trans howner, hfresh, fun hproto hsq => ?_⟩
    have hpos : 0 < (s.portAt p).seq.pc := Nat.pos_of_ne_zero fun h0 => by simp [hfresh hproto h0] at hsq
    rw [h.dstate_of_owner hp (howner.mpr ⟨hproto, hpos⟩)]
    exact hrest hproto hsq
  · rw [portInv_ended_iff (.inr hop)] at hinv
    rw [portInv_ended_iff (hport ▸ .inr hop)]
    exact ⟨mt hbus.mp hinv.1, mt hfsm.mp hinv.2⟩

/-- The invariant is kept when the running port agrees with the locks it leaves. -/
theorem inv_of_portStep {s t : State} {q : Port} (h : Inv s) (hcur : s.curOk) (hstep : PortStep s t q)
    (hhigh : t.busOwner = none → t.pins.cs = true) (hrest : t.fsmOwner = none → t.dstate.resting = true)
    (hport : portInv t s.cur) : Inv t where
  cfgLegal := hstep.cfg ▸ h.cfgLegal
  portCount := by rw [hstep.length, hstep.cfg, h.portCount]
  palette := by rw [hstep.palette, hstep.cfg, h.palette]
  busInRange p hp := by
    rw [hstep.length]
    rcases hstep.bus.of_some hp with hp | rfl
    · exact h.busInRange p hp
    · exact hcur
  fsmInRange p hp := by
    rw [hstep.length]
    rcases hstep.fsm.of_some hp with hp | rfl
    · exact h.fsmInRange p hp
    · exact hcur
  csHigh := hhigh
  resting := hrest
  port p hp := by
    by_cases hc : p = s.cur
    · exact hc ▸ hport
    · exact hstep.portInv_other hc (h.port p (hstep.length ▸ hp))

/-! ### What each micro-step does to the sequencer, the bus and the FSM -/

/-- The micro-steps that may end the request, or stop the port. -/
def endsRequest : Micro → Bool
  | .exit _ | .respondSent | .ret | .drawPixel _ _ | .drawEnd => true
  | _ => false

/-- The running port's sequencer after a micro-step: it goes on to where the micro-step leads, or its request ends. -/
inductive SeqGoes (m : Micro) (q q' : Seq) : Prop
  | on (hop : q'.op = q.op) (hgo : GoesTo m q.pc q'.pc) (hsq : (∀ k, m ≠ .entry k) → q'.sq = q.sq)
  | ends (hend : endsRequest m = true) (hop : Ended q')

/-- A pin is driven by the bus lock's holder, and REFRESH started by the FSM's owner. -/
def OwnsWhatItMoves (m : Micro) (s : State) : Prop :=
  match m with
  | .pin _ _ => s.busOwner = some s.cur
  | .startRefresh => s.fsmOwner = some s.cur
  | _ => True

/-- A micro-step that changes no lock, no pin and no DSTATE. -/
theorem PortStep.of_same {s t : State} {q : Port} (hcur : t.cur = s.cur) (hcfg : t.cfg = s.cfg)
    (hrgb : t.roleRgb = s.roleRgb) (hports : t.ports = s.ports.set s.cur q) (hbus : t.busOwner = s.busOwner)
    (hpins : t.pins = s.pins) (hfsm : t.fsmOwner = s.fsmOwner) (hdst : t.dstate = s.dstate) : PortStep s t q :=
  ⟨hcur, hcfg, hrgb, hports, .inl hbus, fun _ => by rw [hpins], .inl hfsm, fun h => absurd hdst h⟩

/-- A micro-step is a step of the running port that leads where `GoesTo` says, or finds a lock taken and is held. -/
theorem runMicro_portStep {m : Micro} {s t : State} (h : runMicro m s = .next t) (hown : OwnsWhatItMoves m s) :
    t = s ∨ ∃ q, PortStep s t q ∧ SeqGoes m s.seq q.seq := by
  have hnext := runMicro_next m s t h
  have on {q : Port} (hstep : PortStep s t q) (hop : q.seq.op = s.seq.op) (hgo : GoesTo m s.seq.pc q.seq.pc)
      (hsq : (∀ k, m ≠ .entry k) → q.seq.sq = s.seq.sq) : t = s ∨ ∃ q, PortStep s t q ∧ SeqGoes m s.seq q.seq :=
    .inr ⟨q, hstep, .on hop hgo hsq⟩
  cases m with
  | acquire =>
    obtain ⟨hfree, rfl⟩ | ⟨-, rfl⟩ := hnext
    · exact on ⟨rfl, rfl, rfl, rfl, .inr (.inl ⟨hfree, rfl⟩), fun _ => rfl, .inl rfl, nofun⟩ rfl rfl fun _ => rfl
    · exact .inl rfl
  | release =>
    obtain ⟨hheld, rfl⟩ := hnext
    exact on ⟨rfl, rfl, rfl, rfl, .inr (.inr ⟨hheld, rfl⟩), fun _ => rfl, .inl rfl, nofun⟩ rfl rfl fun _ => rfl
  | releaseCmd =>
    obtain ⟨hheld, rfl⟩ := hnext
    refine on ⟨rfl, rfl, rfl, rfl, .inr (.inr ⟨hheld, rfl⟩), fun _ => rfl, .inl rfl, nofun⟩ rfl ?_ fun _ => rfl
    simp only [GoesTo]; split <;> simp
  | pin p lvl =>
    cases hnext
    exact on ⟨rfl, rfl, rfl, rfl, .inl rfl, fun hn => absurd hown hn, .inl rfl, nofun⟩ rfl rfl fun _ => rfl
  | sampleBusy =>
    obtain ⟨b, e, -, -, rfl⟩ := hnext
    refine on (.of_same rfl rfl rfl rfl rfl rfl rfl rfl) rfl ?_ fun _ => rfl
    simp only [GoesTo]; split <;> simp
  | xferOp op skip =>
    obtain ⟨n, ok, e, -, -, -, rfl⟩ := hnext
    refine on (.of_same rfl rfl rfl rfl rfl rfl rfl rfl) rfl ?_ fun _ => rfl
    simp only [GoesTo]; split <;> simp; omega
  | xferChunk src k skip =>
    obtain ⟨n, ok, e, -, -, -, rfl⟩ := hnext
    refine on (.of_same rfl rfl rfl rfl rfl rfl rfl rfl) rfl ?_ fun _ => rfl
    simp only [GoesTo]; split <;> simp; omega
  | entry k =>
    obtain ⟨hfree, -, rfl⟩ | ⟨hfree, -, rfl⟩ | ⟨-, rfl⟩ := hnext
    · exact on ⟨rfl, rfl, rfl, rfl, .inl rfl, fun _ => rfl, .inr (.inl ⟨hfree, rfl⟩), fun _ => .inr ⟨hfree, rfl⟩⟩ rfl rfl
        fun _ => rfl
    · exact on ⟨rfl, rfl, rfl, rfl, .inl rfl, fun _ => rfl, .inr (.inl ⟨hfree, rfl⟩), nofun⟩ rfl rfl
        fun hn => absurd rfl (hn k)
    · exact .inl rfl
  | exit k =>
    obtain ⟨hheld, rfl⟩ := hnext
    exact .inr ⟨_, ⟨rfl, rfl, rfl, rfl, .inl rfl, fun _ => rfl, .inr (.inr ⟨hheld, rfl⟩), fun _ => .inl hheld⟩,
      .ends rfl (.inl rfl)⟩
  | startRefresh =>
    cases hnext
    exact on ⟨rfl, rfl, rfl, rfl, .inl rfl, fun _ => rfl, .inl rfl, fun _ => .inl hown⟩ rfl rfl fun _ => rfl
  | drawPixel src k =>
    obtain ⟨r, -, rfl⟩ | ⟨-, rfl⟩ := hnext
    · exact on (.of_same rfl rfl rfl rfl rfl rfl rfl rfl) rfl rfl fun _ => rfl
    · exact .inr ⟨_, .of_same rfl rfl rfl rfl rfl rfl rfl rfl, .ends rfl (.inr rfl)⟩
  | respondSent | ret | drawEnd =>
    cases hnext; exact .inr ⟨_, .of_same rfl rfl rfl rfl rfl rfl rfl rfl, .ends rfl (.inl rfl)⟩
  | delay _ | pollDelay | logXfer _ | openWindow | closeWindow | drawStart _ =>
    cases hnext; exact on (.of_same rfl rfl rfl rfl rfl rfl rfl rfl) rfl rfl fun _ => rfl

/-- A micro-step that finds the bus as it needs it leaves it as `busLeft` says, with CS at 1 where the lock is free. -/
theorem runMicro_bus {m : Micro} {s t : State} (h : runMicro m s = .next t) (hneed : busNeeded m = busSeen s s.cur)
    (hhigh : s.busOwner = none → s.pins.cs = true) :
    t = s ∨ (busSeen t s.cur = busLeft m ∧ (t.busOwner = none → t.pins.cs = true)) := by
  have hnext := runMicro_next m s t h
  have same (hleft : busLeft m = busNeeded m) (hbus : t.busOwner = s.busOwner) (hpins : t.pins = s.pins) :
      t = s ∨ (busSeen t s.cur = busLeft m ∧ (t.busOwner = none → t.pins.cs = true)) :=
    .inr ⟨by rw [hleft, hneed, busSeen, busSeen, hbus, hpins], by rw [hbus, hpins]; exact hhigh⟩
  obtain ⟨howner, hlevel⟩ := busNeeded_eq_busSeen.mp hneed
  cases m with
  | acquire =>
    obtain ⟨hfree, rfl⟩ | ⟨-, rfl⟩ := hnext
    · exact .inr ⟨by simp [busSeen, busLeft, hhigh hfree], nofun⟩
    · exact .inl rfl
  | release | releaseCmd =>
    obtain ⟨-, rfl⟩ := hnext
    exact .inr ⟨rfl, fun _ => hlevel rfl⟩
  | pin p lvl =>
    cases hnext
    have hheld := howner.mpr rfl
    refine .inr ⟨?_, fun hfree => by cases hheld.symm.trans hfree⟩
    cases p with
    | cs => simp [busSeen, hheld, busLeft, Pins.drive]
    | rst | dc => simp [busSeen, hheld, busLeft, hneed, Pins.drive]
  | sampleBusy => obtain ⟨_, _, -, -, rfl⟩ := hnext; exact same rfl rfl rfl
  | xferOp _ _ | xferChunk _ _ _ => obtain ⟨_, _, _, -, -, -, rfl⟩ := hnext; exact same rfl rfl rfl
  | entry k =>
    obtain ⟨-, -, rfl⟩ | ⟨-, -, rfl⟩ | ⟨-, rfl⟩ := hnext
    · exact same rfl rfl rfl
    · exact same rfl rfl rfl
    · exact .inl rfl
  | exit k => obtain ⟨-, rfl⟩ := hnext; exact same rfl rfl rfl
  | drawPixel src k =>
    obtain ⟨r, -, rfl⟩ | ⟨-, rfl⟩ := hnext
    · exact same rfl rfl rfl
    · exact same rfl rfl rfl
  | delay _ | pollDelay | logXfer _ | startRefresh | openWindow | closeWindow | respondSent | ret | drawStart _ | drawEnd =>
    cases hnext; exact same rfl rfl rfl

/-- Only ENTRY and EXIT move the FSM's lock, and with them only the first step of REFRESH moves DSTATE. -/
theorem runMicro_fsm {m : Micro} {s t : State} (h : runMicro m s = .next t) (hentry : ∀ k, m ≠ .entry k)
    (hexit : ∀ k, m ≠ .exit k) : t.fsmOwner = s.fsmOwner ∧
      ((t.dstate = s.dstate ∧ (m = .startRefresh → s.seq.sq = true)) ∨
        (m = .startRefresh ∧ s.seq.sq = false ∧ t.dstate = .refreshing)) := by
  have hnext := runMicro_next m s t h
  cases m with
  | entry k => exact absurd rfl (hentry k)
  | exit k => exact absurd rfl (hexit k)
  | startRefresh =>
    cases hnext
    refine ⟨rfl, ?_⟩
    cases hsq : s.seq.sq with
    | false => exact .inr ⟨rfl, rfl, by simp⟩
    | true => exact .inl ⟨by simp, fun _ => rfl⟩
  | acquire => obtain ⟨-, rfl⟩ | ⟨-, rfl⟩ := hnext <;> exact ⟨rfl, .inl ⟨rfl, nofun⟩⟩
  | drawPixel _ _ => obtain ⟨_, -, rfl⟩ | ⟨-, rfl⟩ := hnext <;> exact ⟨rfl, .inl ⟨rfl, nofun⟩⟩
  | release | releaseCmd => obtain ⟨-, rfl⟩ := hnext; exact ⟨rfl, .inl ⟨rfl, nofun⟩⟩
  | sampleBusy => obtain ⟨_, _, -, -, rfl⟩ := hnext; exact ⟨rfl, .inl ⟨rfl, nofun⟩⟩
  | xferOp _ _ | xferChunk _ _ _ => obtain ⟨_, _, _, -, -, -, rfl⟩ := hnext; exact ⟨rfl, .inl ⟨rfl, nofun⟩⟩
  | pin _ _ | delay _ | pollDelay | logXfer _ | openWindow | closeWindow | respondSent | ret | drawStart _ | drawEnd =>
    cases hnext; exact ⟨rfl, .inl ⟨rfl, nofun⟩⟩

/-! ## Every step keeps the invariant (O11) -/

/-- The running port stands at `m` of instruction `i` and agrees with the locks. -/
structure StandsAt (s : State) (i : Instr) (m : Micro) : Prop where
  cur : s.curOk
  op : s.seq.op = .busy i
  micro : stepAt s.cfg i s.seq.pc = some m
  bus : busNeeded m = busSeen s s.cur
  fsm : FsmAgrees s s.cur i s.seq

/-- A running port with a request in progress stands at one of its micro-steps. -/
theorem inv_standsAt {s : State} (h : Inv s) (hcur : s.curOk) {i : Instr} (hop : s.seq.op = .busy i) :
    ∃ m, StandsAt s i m := by
  obtain ⟨m, hm, hbus, hfsm⟩ := (portInv_busy_iff hop).mp (h.port s.cur hcur)
  exact ⟨m, hcur, hop, hm, hbus, hfsm⟩

/-- Where a protocol request's own micro-step is not its ENTRY, its port owns the FSM. -/
theorem StandsAt.fsmOwner {s : State} {i : Instr} {m : Micro} (h : StandsAt s i m) (hproto : isProtocol i = true)
    (hm : ∀ k, m ≠ .entry k) : s.fsmOwner = some s.cur := by
  refine h.fsm.owner.mpr ⟨hproto, Nat.pos_of_ne_zero fun h0 => ?_⟩
  obtain ⟨k, hk⟩ := protocol_starts s.cfg hproto
  have hmicro := h.micro
  rw [h0, hk] at hmicro
  exact hm k (Option.some.inj hmicro).symm

/-- An ENTRY that finds the FSM free is the first micro-step of a request not yet out of sequence. -/
theorem StandsAt.entry_start {s : State} {i : Instr} {k : Proto} (h : StandsAt s i (.entry k))
    (hfree : s.fsmOwner = none) : isProtocol i = true ∧ s.seq.pc = 0 ∧ s.seq.sq = false := by
  have hproto := isProtocol_of_entry h.micro
  have hpc : s.seq.pc = 0 := Nat.eq_zero_of_not_pos fun hpos => by
    cases hfree.symm.trans (h.fsm.owner.mpr ⟨hproto, hpos⟩)
  exact ⟨hproto, hpc, h.fsm.fresh hproto hpc⟩

theorem StandsAt.ownsWhatItMoves {s : State} {i : Instr} {m : Micro} (h : StandsAt s i m) : OwnsWhatItMoves m s := by
  cases m with
  | pin p lvl => exact (busNeeded_eq_busSeen.mp h.bus).1.mpr rfl
  | startRefresh => exact h.fsmOwner (isProtocol_of_startRefresh h.micro) nofun
  | acquire | release | releaseCmd | delay _ | sampleBusy | pollDelay | xferOp _ _ | xferChunk _ _ _ | logXfer _ | entry _
  | exit _ | openWindow | closeWindow | respondSent | ret | drawStart _ | drawPixel _ _ | drawEnd => trivial

/-- A protocol request ends by its EXIT alone. -/
theorem endsRequest_not_protocol {c : Cfg} {i : Instr} {pc : Nat} {m : Micro} (hend : endsRequest m = true)
    (hm : stepAt c i pc = some m) (hexit : ∀ k, m ≠ .exit k) : isProtocol i = false := by
  by_contra hn
  rcases protocol_micro (by simpa using hn) hm with hb | rfl | ⟨k, rfl⟩ | ⟨k, rfl⟩
  · cases m with
    | exit _ | respondSent | ret | drawPixel _ _ | drawEnd => cases hb
    | _ => cases hend
  · cases hend
  · cases hend
  · exact hexit k rfl

theorem endsRequest_busLeft {m : Micro} (h : endsRequest m = true) : busLeft m = none := by
  cases m with
  | exit _ | respondSent | ret | drawPixel _ _ | drawEnd => rfl
  | _ => cases h

theorem seq_of_ports {s t : State} {q : Seq} (hcur : s.curOk) (hports : t.ports = s.portsWithSeq q) :
    (t.portAt s.cur).seq = q := by
  rw [State.portAt, hports]; exact congrArg Port.seq (getD_set_self _ _ _ _ hcur)

/-- After ENTRY the running port owns the FSM, and DSTATE rests where the request was not allowed. -/
theorem entry_fsmAgrees {s t : State} {i : Instr} {k : Proto} (hinv : Inv s) (hat : StandsAt s i (.entry k))
    (h : runMicro (.entry k) s = .next t) : t = s ∨ FsmAgrees t s.cur i (t.portAt s.cur).seq := by
  rcases runMicro_next _ s t h with ⟨hfree, -, rfl⟩ | ⟨hfree, -, rfl⟩ | ⟨-, rfl⟩
  · obtain ⟨hproto, -, hsq⟩ := hat.entry_start hfree
    rw [seq_of_ports hat.cur rfl]
    exact .inr ⟨iff_of_true rfl ⟨hproto, Nat.succ_pos _⟩, fun _ => nofun, fun _ hsq' => by cases hsq.symm.trans hsq'⟩
  · obtain ⟨hproto, -, -⟩ := hat.entry_start hfree
    rw [seq_of_ports hat.cur rfl]
    exact .inr ⟨iff_of_true rfl ⟨hproto, Nat.succ_pos _⟩, fun _ => nofun, fun _ _ => hinv.resting hfree⟩
  · exact .inl rfl

/-- A request that goes on past another micro-step keeps the FSM as it is, and DSTATE too where it was not allowed. -/
theorem goesTo_fsmAgrees {s t : State} {i : Instr} {m : Micro} {q : Seq} (hat : StandsAt s i m)
    (h : runMicro m s = .next t) (hentry : ∀ k, m ≠ .entry k) (hgo : GoesTo m s.seq.pc q.pc) (hsq : q.sq = s.seq.sq) :
    FsmAgrees t s.cur i q := by
  have hexit : ∀ k, m ≠ .exit k := by rintro k rfl; cases hgo
  obtain ⟨hfsm, hdst⟩ := runMicro_fsm h hentry hexit
  have hpos (hproto : isProtocol i = true) : 0 < q.pc := protocol_goesTo_pos hproto hat.micro hgo
  refine ⟨?_, fun hproto h0 => absurd h0 (hpos hproto).ne', fun hproto hq => ?_⟩
  · rw [hfsm]
    exact ⟨fun ho => ⟨(hat.fsm.owner.mp ho).1, hpos (hat.fsm.owner.mp ho).1⟩, fun hp => hat.fsmOwner hp.1 hentry⟩
  · rw [hsq] at hq
    rcases hdst with ⟨hsame, -⟩ | ⟨-, hok, -⟩
    · rw [hsame]; exact hat.fsm.rest hproto hq
    · cases hok.symm.trans hq

/-- Where a micro-step leaves the FSM free, DSTATE is at rest (10_state.md R23). -/
theorem runMicro_resting {s t : State} {i : Instr} {m : Micro} (hinv : Inv s) (hat : StandsAt s i m)
    (h : runMicro m s = .next t) (hfree : t.fsmOwner = none) : t.dstate.resting = true := by
  by_cases hentry : ∃ k, m = .entry k
  · obtain ⟨k, rfl⟩ := hentry
    rcases runMicro_next _ s t h with ⟨-, -, rfl⟩ | ⟨-, -, rfl⟩ | ⟨-, rfl⟩
    · cases hfree
    · cases hfree
    · exact hinv.resting hfree
  · by_cases hexit : ∃ k, m = .exit k
    · obtain ⟨k, rfl⟩ := hexit
      obtain ⟨-, rfl⟩ := runMicro_next _ s t h
      cases hsq : s.seq.sq with
      | true => simpa [hsq] using hat.fsm.rest (isProtocol_of_exit _ _ _ _ hat.micro) hsq
      | false => simp [resting_endState]
    · have hne (k : Proto) : m ≠ .entry k := fun he => hentry ⟨k, he⟩
      obtain ⟨hfsm, ⟨hdst, -⟩ | ⟨rfl, -, -⟩⟩ := runMicro_fsm h hne fun k he => hexit ⟨k, he⟩
      · rw [hdst]; exact hinv.resting (hfsm ▸ hfree)
      · have hown := hat.fsmOwner (isProtocol_of_startRefresh hat.micro) hne
        cases (hfsm.trans hown).symm.trans hfree

/-- A port whose request has just ended does not own the FSM. -/
theorem ended_fsmOwner {s t : State} {i : Instr} {m : Micro} (hat : StandsAt s i m) (h : runMicro m s = .next t)
    (hend : endsRequest m = true) : t.fsmOwner ≠ some s.cur := by
  by_cases hexit : ∃ k, m = .exit k
  · obtain ⟨k, rfl⟩ := hexit
    obtain ⟨-, rfl⟩ := runMicro_next _ s t h
    exact nofun
  · have hne (k : Proto) : m ≠ .exit k := fun he => hexit ⟨k, he⟩
    have hentry (k : Proto) : m ≠ .entry k := by rintro rfl; cases hend
    rw [(runMicro_fsm h hentry hne).1]
    intro hown
    have hproto := (hat.fsm.owner.mp hown).1
    rw [endsRequest_not_protocol hend hat.micro hne] at hproto
    cases hproto

/-- A micro-step keeps the invariant. -/
theorem runMicro_keepsInv {s t : State} {i : Instr} {m : Micro} (hinv : Inv s) (hat : StandsAt s i m)
    (h : runMicro m s = .next t) : Inv t := by
  by_cases hts : t = s
  · exact hts ▸ hinv
  obtain ⟨q, hstep, hgoes⟩ := (runMicro_portStep h hat.ownsWhatItMoves).resolve_left hts
  obtain ⟨hseen, hhigh⟩ := (runMicro_bus h hat.bus hinv.csHigh).resolve_left hts
  have hq := hstep.portAt_cur hat.cur
  refine inv_of_portStep hinv hat.cur hstep hhigh (runMicro_resting hinv hat h) ?_
  cases hgoes with
  | on hop hgo hsq =>
    obtain ⟨m', hm', hneed⟩ := stepAt_goesTo hat.micro hgo
    refine (portInv_busy_iff (hq ▸ hop.trans hat.op)).mpr ⟨m', ?_, hneed.trans hseen.symm, ?_⟩
    · rw [hq, hstep.cfg, hm']
    · by_cases hentry : ∃ k, m = .entry k
      · obtain ⟨k, rfl⟩ := hentry
        exact (entry_fsmAgrees hinv hat h).resolve_left hts
      · have hne (k : Proto) : m ≠ .entry k := fun he => hentry ⟨k, he⟩
        rw [hq]
        exact goesTo_fsmAgrees hat h hne hgo (hsq hne)
  | ends hend hop =>
    rw [portInv_ended_iff (hq ▸ hop)]
    exact ⟨busSeen_eq_none.mp (hseen.trans (endsRequest_busLeft hend)), ended_fsmOwner hat h hend⟩

/-! ### Steps that move neither lock nor DSTATE -/

/-- A step of the running port alone, which leaves it the record `q`, the locks, the pins and DSTATE as they are, and emits at
most a response. -/
structure QuietStep (s t : State) (q : Port) : Prop where
  cur : t.cur = s.cur
  cfg : t.cfg = s.cfg
  palette : t.roleRgb = s.roleRgb
  ports : t.ports = s.ports.set s.cur q
  busOwner : t.busOwner = s.busOwner
  pins : t.pins = s.pins
  fsmOwner : t.fsmOwner = s.fsmOwner
  dstate : t.dstate = s.dstate
  trace : t.trace = s.trace ∨ ∃ r, t.trace = s.trace ++ [.resp s.cur r]

theorem QuietStep.portStep {s t : State} {q : Port} (h : QuietStep s t q) : PortStep s t q :=
  .of_same h.cur h.cfg h.palette h.ports h.busOwner h.pins h.fsmOwner h.dstate

/-- A quiet step keeps the invariant when the running port agrees with the locks. -/
theorem QuietStep.keepsInv {s t : State} {q : Port} (h : QuietStep s t q) (hinv : Inv s) (hcur : s.curOk)
    (hport : portInv t s.cur) : Inv t :=
  inv_of_portStep hinv hcur h.portStep (by rw [h.busOwner, h.pins]; exact hinv.csHigh)
    (by rw [h.fsmOwner, h.dstate]; exact hinv.resting) hport

/-- A port that holds no lock may end its request, or stop, without more. -/
theorem QuietStep.keepsInv_of_ended {s t : State} {q : Port} (h : QuietStep s t q) (hinv : Inv s) (hcur : s.curOk)
    (hend : Ended q.seq) (hbus : s.busOwner ≠ some s.cur) (hfsm : s.fsmOwner ≠ some s.cur) : Inv t := by
  refine h.keepsInv hinv hcur ((portInv_ended_iff ?_).mpr ?_)
  · rw [h.portStep.portAt_cur hcur]; exact hend
  · rw [h.busOwner, h.fsmOwner]; exact ⟨hbus, hfsm⟩

/-- `return resp(...)` with nothing else. -/
theorem respond_quiet (s : State) (r : Response) : ∃ q, QuietStep s (s.respond r) q ∧ Ended q.seq :=
  ⟨_, ⟨rfl, rfl, rfl, rfl, rfl, rfl, rfl, rfl, .inr ⟨r, rfl⟩⟩, .inl rfl⟩

/-- The running port's record is the last one set. -/
theorem set_cur_twice (s : State) (q q' : Port) : ((s.setPort q).setPort q').ports = s.ports.set s.cur q' :=
  List.set_set ..

/-- A request accepted stands at `pc` 0 with its flags 0 (10_state.md R21). -/
theorem accept_quiet (s : State) (i : Instr) :
    ∃ q, QuietStep s (s.accept i) q ∧ q.seq.op = .busy i ∧ q.seq.pc = 0 ∧ q.seq.sq = false :=
  ⟨_, ⟨rfl, rfl, rfl, set_cur_twice s _ _, rfl, rfl, rfl, rfl, .inl rfl⟩, rfl, rfl, rfl⟩

/-- An illegal request is answered and no more (60_exceptions.md R263). -/
theorem respondIllegal_quiet (s : State) : ∃ q, QuietStep s s.respondIllegal q ∧ Ended q.seq :=
  ⟨_, ⟨rfl, rfl, rfl, set_cur_twice s _ _, rfl, rfl, rfl, rfl, .inr ⟨_, rfl⟩⟩, .inl rfl⟩

/-- The requests of one step end in it, quietly. -/
theorem exec_quiet {i : Instr} {s t : State} (h : exec i s = .next t) (hnone : stepAt s.cfg i s.seq.pc = none) :
    ∃ q, QuietStep s t q ∧ Ended q.seq := by
  rcases exec_cases i s with ⟨m, hm, -⟩ | ⟨b, hl, -, -, -, he⟩ | ⟨-, he⟩ | ⟨x, y, r, -, he⟩ | ⟨x, y, -, he⟩ | ⟨-, he⟩ |
    ⟨-, he⟩
  · cases hnone.symm.trans hm
  · cases he.symm.trans h; exact respond_quiet s _
  · cases he.symm.trans h; exact respond_quiet s _
  · cases (execFbSet_eq x y r s).symm.trans (he.symm.trans h)
    exact ⟨_, ⟨rfl, rfl, rfl, rfl, rfl, rfl, rfl, rfl, .inr ⟨_, rfl⟩⟩, .inl rfl⟩
  · obtain ⟨-, _, -, rfl⟩ | ⟨-, -, rfl⟩ | ⟨-, _, rfl⟩ := execFbGet_next x y s t (he.symm.trans h)
    · exact ⟨_, ⟨rfl, rfl, rfl, rfl, rfl, rfl, rfl, rfl, .inr ⟨_, rfl⟩⟩, .inl rfl⟩
    · exact ⟨_, ⟨rfl, rfl, rfl, rfl, rfl, rfl, rfl, rfl, .inl rfl⟩, .inr rfl⟩
    · exact ⟨_, ⟨rfl, rfl, rfl, rfl, rfl, rfl, rfl, rfl, .inr ⟨_, rfl⟩⟩, .inl rfl⟩
  · cases (execFbClear_eq s).symm.trans (he.symm.trans h)
    exact ⟨_, ⟨rfl, rfl, rfl, rfl, rfl, rfl, rfl, rfl, .inr ⟨_, rfl⟩⟩, .inl rfl⟩
  · cases he.symm.trans h

/-- No instruction's first micro-step needs the bus lock. -/
theorem busNeeded_start {c : Cfg} {i : Instr} {m : Micro} (hm : stepAt c i 0 = some m) : busNeeded m = none := by
  rcases stepAt_zero c i with ⟨k, h⟩ | ⟨src, h⟩ | h | rfl | ⟨x, y, r, rfl⟩ | ⟨x, y, rfl⟩ | rfl
  · cases hm.symm.trans h; rfl
  · cases hm.symm.trans h; rfl
  · cases hm.symm.trans h; rfl
  all_goals cases hm

/-- An accepted request with a micro-step keeps the invariant. -/
theorem accept_keepsInv {s : State} {i : Instr} {m : Micro} (hinv : Inv s) (hcur : s.curOk) (hidle : s.seq.op = .idle)
    (hm : stepAt s.cfg i 0 = some m) : Inv (s.accept i) := by
  obtain ⟨q, hquiet, hop, hpc, hsq⟩ := accept_quiet s i
  have hq := hquiet.portStep.portAt_cur hcur
  obtain ⟨hbus, hfsm⟩ := (portInv_ended_iff (.inl hidle)).mp (hinv.port s.cur hcur)
  refine hquiet.keepsInv hinv hcur ((portInv_busy_iff (hq ▸ hop)).mpr ⟨m, ?_, ?_, ?_⟩)
  · rw [hq, hpc]; exact hm
  · rw [busNeeded_start hm]; exact (busSeen_eq_none.mpr hbus).symm
  · rw [hq]
    exact ⟨iff_of_false hfsm fun h => by omega, fun _ _ => hsq, fun _ h => by cases hsq.symm.trans h⟩

/-! ### The step, from a state of the invariant -/

/-- The port that moves is chosen in `v`, and may have accepted its next request: nothing else differs from `s`. -/
structure Chosen (s v : State) : Prop where
  cfg : v.cfg = s.cfg
  length : v.ports.length = s.ports.length
  busOwner : v.busOwner = s.busOwner
  pins : v.pins = s.pins
  fsmOwner : v.fsmOwner = s.fsmOwner
  dstate : v.dstate = s.dstate
  trace : v.trace = s.trace
  seq : ∀ p, (v.portAt p).seq = (s.portAt p).seq ∨ (v.portAt p).seq.pc = 0

theorem chosen_running (s : State) (e : Env) (p : Nat) : Chosen s { s with env := e, cur := p } :=
  ⟨rfl, rfl, rfl, rfl, rfl, rfl, rfl, fun _ => .inl rfl⟩

theorem chosen_accept {s u : State} (h : Chosen s u) (hcur : u.curOk) (i : Instr) : Chosen s (u.accept i) where
  cfg := h.cfg
  length := (accept_quiet u i).elim fun _ hq => hq.1.portStep.length.trans h.length
  busOwner := h.busOwner
  pins := h.pins
  fsmOwner := h.fsmOwner
  dstate := h.dstate
  trace := h.trace
  seq p := by
    obtain ⟨q, hquiet, -, hpc, -⟩ := accept_quiet u i
    by_cases hp : p = u.cur
    · rw [hp, hquiet.portStep.portAt_cur hcur]; exact .inr hpc
    · rw [hquiet.portStep.portAt_other hp]; exact h.seq p

/-- Everything a step from a state of the invariant can do, once the port that moves is chosen: nothing; end a request that
holds no lock; or take the micro-step of a request in progress. -/
inductive StepUnderInv (s t : State) : Prop
  | rest (hv : Chosen s t) (hinv : Inv t)
  | quiet {v : State} {q : Port} (hv : Chosen s v) (hinv : Inv v) (hcur : v.curOk) (hquiet : QuietStep v t q)
      (hend : Ended q.seq) (hbus : v.busOwner ≠ some v.cur) (hfsm : v.fsmOwner ≠ some v.cur)
  | micro {v : State} {i : Instr} {m : Micro} (hv : Chosen s v) (hinv : Inv v) (hat : StandsAt v i m)
      (h : runMicro m v = .next t)

/-- An instruction that stands at a micro-step takes it, or is a DISPLAY refused for its length, which owns nothing yet. -/
theorem exec_underInv {s v t : State} {i : Instr} {m : Micro} (hv : Chosen s v) (hinv : Inv v) (hat : StandsAt v i m)
    (h : exec i v = .next t) : StepUnderInv s t := by
  rcases exec_cases i v with ⟨m', hm, he⟩ | ⟨b, hl, rfl, hpc, -, he⟩ | ⟨rfl, -⟩ | ⟨x, y, r, rfl, -⟩ | ⟨x, y, rfl, -⟩ |
    ⟨rfl, -⟩ | ⟨hnone, -⟩
  · cases hat.micro.symm.trans hm
    exact .micro hv hinv hat (he.symm.trans h)
  · cases he.symm.trans h
    obtain ⟨q, hquiet, hend⟩ := respond_quiet v (refuseResp .len .empty)
    have hm := hat.micro
    rw [hpc] at hm
    refine .quiet hv hinv hat.cur hquiet hend (busSeen_eq_none.mp (hat.bus.symm.trans (busNeeded_start hm))) fun ho => ?_
    have := (hat.fsm.owner.mp ho).2
    omega
  · cases hat.micro
  · cases hat.micro
  · cases hat.micro
  · cases hat.micro
  · cases hat.micro.symm.trans hnone

/-- A request of one step, taken from an idle port. -/
theorem QuietStep.after_accept {u t : State} {q : Port} {i : Instr} (h : QuietStep (u.accept i) t q) : QuietStep u t q where
  cur := h.cur
  cfg := h.cfg
  palette := h.palette
  ports := by rw [h.ports]; exact (congrArg (List.set · _ _) (set_cur_twice u _ _)).trans (List.set_set ..)
  busOwner := h.busOwner
  pins := h.pins
  fsmOwner := h.fsmOwner
  dstate := h.dstate
  trace := h.trace

theorem step_underInv {s t : State} (hinv : Inv s) (h : step s = .next t) : StepUnderInv s t := by
  have hcases := step_cases s
  rw [drawPort_snd] at hcases
  rcases hcases with ⟨-, hs⟩ | ⟨hp, hcases⟩
  · cases hs.symm.trans h
    exact .rest (chosen_running s _ s.cur) (inv_choose hinv _ s.cur)
  generalize hu : ({ s with env := s.drawPort.2.env } : State).running s.drawPort.1 = u at hcases
  have hv : Chosen s u := hu ▸ chosen_running s _ _
  have huinv : Inv u := hu ▸ inv_choose hinv _ _
  have hcur : u.curOk := hu ▸ hp
  have hidle (hop : u.seq.op = .idle) := (portInv_ended_iff (.inl hop)).mp (huinv.port u.cur hcur)
  rcases hcases with ⟨-, hs⟩ | ⟨-, -, hs⟩ | ⟨hop, -, hs⟩ | ⟨hop, r, rest, i, -, -, hs⟩ | ⟨i, hop, hs⟩
  · cases hs.symm.trans h; exact .rest hv huinv
  · cases hs.symm.trans h; exact .rest hv huinv
  · cases hs.symm.trans h
    obtain ⟨q, hquiet, hend⟩ := respondIllegal_quiet u
    exact .quiet hv huinv hcur hquiet hend (hidle hop).1 (hidle hop).2
  · have hexec := hs.symm.trans h
    rcases hm : stepAt u.cfg i 0 with _ | m
    · obtain ⟨q, hquiet, hend⟩ := exec_quiet hexec (by rw [accept_pc u i hcur]; exact hm)
      exact .quiet hv huinv hcur hquiet.after_accept hend (hidle hop).1 (hidle hop).2
    · have haccept := accept_keepsInv huinv hcur hop hm
      obtain ⟨q, hquiet, hbusy, -⟩ := accept_quiet u i
      have hop' := (congrArg (·.seq.op) (hquiet.portStep.portAt_cur hcur)).trans hbusy
      obtain ⟨m', hat⟩ := inv_standsAt haccept (hcur.trans_eq hquiet.portStep.length.symm) hop'
      exact exec_underInv (chosen_accept hv hcur i) haccept hat hexec
  · obtain ⟨m, hat⟩ := inv_standsAt huinv hcur hop
    exact exec_underInv hv huinv hat (hs.symm.trans h)

/-- Settles O11: the running port's micro-step, or the quiet end of a request that holds no lock, keeps the invariant. -/
theorem stepKeepsInv : Obligations.StepKeepsInv := by
  intro s t hinv h
  cases step_underInv hinv h with
  | rest _ ht => exact ht
  | quiet _ hv hcur hquiet hend hbus hfsm => exact hquiet.keepsInv_of_ended hv hcur hend hbus hfsm
  | micro _ hv hat hrun => exact runMicro_keepsInv hv hat hrun

/-! ## DSTATE follows R151's table (O15) -/

/-- Choosing the port that moves leaves DSTATE and every request that has passed its ENTRY as they are. -/
theorem Chosen.dstateInv {s v : State} (h : Chosen s v) (hd : DstateInv s) : DstateInv v := by
  intro p i hp hop hproto hpc hsq
  have hseq := (h.seq p).resolve_right hpc.ne'
  rw [hseq] at hop hpc hsq ⊢
  rw [h.cfg, h.dstate]
  exact hd p i (h.length ▸ hp) hop hproto hpc hsq

/-- An allowed request of another port is at the value of DSTATE it was at: it owns the FSM. -/
theorem PortStep.dstateAt_other {s t : State} {q : Port} (h : PortStep s t q) (hinv : Inv s) (hd : DstateInv s) {p : Nat}
    (hp : p < s.ports.length) (hne : p ≠ s.cur) {i : Instr} (hop : (s.portAt p).seq.op = .busy i)
    (hproto : isProtocol i = true) (hpc : 0 < (s.portAt p).seq.pc) (hsq : (s.portAt p).seq.sq = false) :
    dstateAt s.cfg i (s.portAt p).seq.pc t.dstate := by
  obtain ⟨m, -, -, hfsm⟩ := (portInv_busy_iff hop).mp (hinv.port p hp)
  rw [h.dstate_of_owner hne (hfsm.owner.mpr ⟨hproto, hpc⟩)]
  exact hd p i hp hop hproto hpc hsq

/-- DSTATE stays as R151 says when it does for the running port's request, if that goes on. -/
theorem PortStep.keepsDstateInv {s t : State} {q : Port} (h : PortStep s t q) (hinv : Inv s) (hd : DstateInv s)
    (hcur : s.curOk) (hport : ∀ i, q.seq.op = .busy i → isProtocol i = true → q.seq.sq = false →
      dstateAt s.cfg i q.seq.pc t.dstate) : DstateInv t := by
  intro p i hp hop hproto hpc hsq
  rw [h.cfg]
  by_cases hne : p = s.cur
  · rw [hne, h.portAt_cur hcur] at hop hsq ⊢
    exact hport i hop hproto hsq
  · rw [h.portAt_other hne] at hop hpc hsq ⊢
    exact h.dstateAt_other hinv hd (h.length ▸ hp) hne hop hproto hpc hsq

/-- An allowed request past its ENTRY is at R151's value. -/
theorem StandsAt.dstateAt {s : State} {i : Instr} {m : Micro} (hat : StandsAt s i m) (hd : DstateInv s)
    (hproto : isProtocol i = true) (hm : ∀ k, m ≠ .entry k) (hsq : s.seq.sq = false) :
    dstateAt s.cfg i s.seq.pc s.dstate :=
  hd s.cur i hat.cur hat.op hproto (hat.fsm.owner.mp (hat.fsmOwner hproto hm)).2 hsq

/-- After an allowed ENTRY DSTATE is at R151's value. -/
theorem entry_dstateAt {s t : State} {i : Instr} {k : Proto} (hat : StandsAt s i (.entry k))
    (h : runMicro (.entry k) s = .next t) (hsq : (t.portAt s.cur).seq.sq = false) :
    t = s ∨ dstateAt s.cfg i (t.portAt s.cur).seq.pc t.dstate := by
  rcases runMicro_next _ s t h with ⟨hfree, hallowed, rfl⟩ | ⟨-, -, rfl⟩ | ⟨-, rfl⟩
  · have hpc := (hat.entry_start hfree).2.1
    have hmicro := hat.micro
    rw [hpc] at hmicro
    rw [seq_of_ports hat.cur rfl, hpc]
    exact .inr (dstateAt_entry hmicro hallowed)
  · rw [seq_of_ports hat.cur rfl] at hsq
    cases hsq
  · exact .inl rfl

/-- Past every other line an allowed request is at R151's value again. -/
theorem goesTo_dstateAt {s t : State} {i : Instr} {m : Micro} {q : Seq} (hat : StandsAt s i m) (hd : DstateInv s)
    (h : runMicro m s = .next t) (hproto : isProtocol i = true) (hentry : ∀ k, m ≠ .entry k)
    (hgo : GoesTo m s.seq.pc q.pc) (hsq : s.seq.sq = false) : dstateAt s.cfg i q.pc t.dstate := by
  have hexit : ∀ k, m ≠ .exit k := by rintro k rfl; cases hgo
  obtain ⟨-, ⟨hsame, hout⟩ | ⟨rfl, -, hmove⟩⟩ := runMicro_fsm h hentry hexit
  · have hne : m ≠ .startRefresh := fun hm => by cases hsq.symm.trans (hout hm)
    rw [hsame]
    exact dstateAt_goesTo hproto hat.micro hgo hne (hat.dstateAt hd hproto hentry hsq)
  · rw [hmove, show q.pc = s.seq.pc + 1 from hgo]
    exact (dstateAt_startRefresh hat.micro).2

/-- A micro-step keeps DSTATE at R151's values. -/
theorem runMicro_keepsDstateInv {s t : State} {i : Instr} {m : Micro} (hinv : Inv s) (hd : DstateInv s)
    (hat : StandsAt s i m) (h : runMicro m s = .next t) : DstateInv t := by
  by_cases hts : t = s
  · exact hts ▸ hd
  obtain ⟨q, hstep, hgoes⟩ := (runMicro_portStep h hat.ownsWhatItMoves).resolve_left hts
  refine hstep.keepsDstateInv hinv hd hat.cur fun i' hop' hproto hsq => ?_
  cases hgoes with
  | ends _ hend => rcases hend with hend | hend <;> cases hend.symm.trans hop'
  | on hop hgo hkeep =>
    cases hat.op.symm.trans (hop.symm.trans hop')
    by_cases hentry : ∃ k, m = .entry k
    · obtain ⟨k, rfl⟩ := hentry
      rw [← hstep.portAt_cur hat.cur] at hsq ⊢
      exact (entry_dstateAt hat h hsq).resolve_left hts
    · have hne (k : Proto) : m ≠ .entry k := fun he => hentry ⟨k, he⟩
      exact goesTo_dstateAt hat hd h hproto hne hgo ((hkeep hne).symm.trans hsq)

/-- A micro-step moves DSTATE only as R151 allows. -/
theorem runMicro_dstateMove {s t : State} {i : Instr} {m : Micro} (hinv : Inv s) (hd : DstateInv s)
    (hat : StandsAt s i m) (h : runMicro m s = .next t) (hmoved : t.dstate ≠ s.dstate) :
    dstateMove s.dstate t.dstate = true := by
  by_cases hentry : ∃ k, m = .entry k
  · obtain ⟨k, rfl⟩ := hentry
    rcases runMicro_next _ s t h with ⟨hfree, hallowed, rfl⟩ | ⟨-, -, rfl⟩ | ⟨-, rfl⟩
    · exact dstateMove_entry hallowed (hinv.resting hfree) hmoved
    · exact absurd rfl hmoved
    · exact absurd rfl hmoved
  have hne (k : Proto) : m ≠ .entry k := fun he => hentry ⟨k, he⟩
  by_cases hexit : ∃ k, m = .exit k
  · obtain ⟨k, rfl⟩ := hexit
    obtain ⟨-, rfl⟩ := runMicro_next _ s t h
    cases hsq : s.seq.sq with
    | true => exact absurd (by simp [hsq]) hmoved
    | false =>
      have hproto := isProtocol_of_exit _ _ _ _ hat.micro
      simpa [hsq] using dstateAt_exit hat.micro (hat.dstateAt hd hproto hne hsq)
  · obtain ⟨-, ⟨hsame, -⟩ | ⟨rfl, hsq, hmove⟩⟩ := runMicro_fsm h hne fun k he => hexit ⟨k, he⟩
    · exact absurd hsame hmoved
    · have hproto := isProtocol_of_startRefresh hat.micro
      rw [hmove, (dstateAt_startRefresh hat.micro).1 _ (hat.dstateAt hd hproto hne hsq)]; rfl

/-- Settles O15: the running port's micro-step moves DSTATE along the table; the ports that own no FSM do not see it. -/
theorem dstateFollowsTable : Obligations.DstateFollowsTable := by
  intro s t hinv hd h
  cases step_underInv hinv h with
  | rest hv _ => exact ⟨hv.dstateInv hd, fun hmoved => absurd hv.dstate hmoved⟩
  | quiet hv hvinv hcur hquiet hend _ _ =>
    refine ⟨hquiet.portStep.keepsDstateInv hvinv (hv.dstateInv hd) hcur fun i hop => ?_, fun hmoved => ?_⟩
    · rcases hend with hend | hend <;> cases hend.symm.trans hop
    · exact absurd (hquiet.dstate.trans hv.dstate) hmoved
  | @micro v i m hv hvinv hat hrun =>
    refine ⟨runMicro_keepsDstateInv hvinv (hv.dstateInv hd) hat hrun, fun hmoved => ?_⟩
    rw [← hv.dstate] at hmoved ⊢
    refine ⟨runMicro_dstateMove hvinv (hv.dstateInv hd) hat hrun hmoved, ?_⟩
    rcases runMicro_portStep hrun hat.ownsWhatItMoves with rfl | ⟨q, hstep, -⟩
    · exact absurd rfl hmoved
    · rw [hstep.cur, ← hv.fsmOwner]
      exact hstep.dstate hmoved

/-! ## The bus discipline of the trace (O14) -/

theorem busAfter_append (limit : Nat) (es : List Event) (e : Event) :
    busAfter limit (es ++ [e]) = (busAfter limit es).bind (busNext limit · e) := by
  simp [busAfter, List.foldl_append]

/-- The trace keeps the discipline under an event that takes the monitor from the lock and pins before it to those after. -/
theorem traceInv_emit {s t : State} {e : Event} (h : TraceInv s) (hcfg : t.cfg = s.cfg) (htrace : t.trace = s.trace ++ [e])
    (hnext : busNext s.cfg.xferLimit ⟨s.busOwner, s.pins⟩ e = some ⟨t.busOwner, t.pins⟩) : TraceInv t := by
  rw [TraceInv, hcfg, htrace, busAfter_append, h]
  exact hnext

/-- The trace keeps the discipline where no event, lock or pin is new. -/
theorem traceInv_silent {s t : State} (h : TraceInv s) (hcfg : t.cfg = s.cfg) (htrace : t.trace = s.trace)
    (hbus : t.busOwner = s.busOwner) (hpins : t.pins = s.pins) : TraceInv t := by
  rw [TraceInv, hcfg, htrace, hbus, hpins]; exact h

/-- A legal configuration lets a transfer have a byte (00_scope.md R6). -/
theorem xferLimit_pos {c : Cfg} (h : c.legal = true) : 1 ≤ c.xferLimit := by
  simp only [Cfg.legal, Bool.and_eq_true, decide_eq_true_eq] at h
  omega

/-- A chunk has 1 to `XFER_LIMIT` bytes (40_channel.md R121). -/
theorem payloadChunk_length (c : Cfg) (f : FrameBuf) (src : Payload) {k : Nat} (hlimit : 1 ≤ c.xferLimit)
    (hk : k < nchunks c (payloadLen c src)) :
    1 ≤ (payloadChunk c f src k).length ∧ (payloadChunk c f src k).length ≤ c.xferLimit := by
  have hlen : (payloadChunk c f src k).length =
      min ((k + 1) * c.xferLimit) (payloadLen c src) - k * c.xferLimit := by
    cases src with
    | bytes s => simp only [payloadChunk, payloadSlice, payloadLen, List.length_take, List.length_drop]; omega
    | plane p => simp [payloadChunk, payloadSlice]
  have hlow : k * c.xferLimit < payloadLen c src := by
    rw [nchunks, ceilDiv] at hk
    have := (Nat.le_div_iff_mul_le hlimit).mp hk
    rw [Nat.succ_mul] at this
    omega
  rw [hlen, Nat.succ_mul]
  omega

/-- The lock's holder may send 1 to `limit` bytes with CS at 0. -/
theorem busNext_xfer {limit p n : Nat} {bytes : List Byte} {pins : Pins} (ok : Bool) (hcs : pins.cs = false)
    (hlow : 1 ≤ bytes.length) (hhigh : bytes.length ≤ limit) (hn : n ≤ bytes.length) :
    busNext limit ⟨some p, pins⟩ (.xfer p bytes n ok) = some ⟨some p, pins⟩ := by
  simp [busNext, hcs, hlow, hhigh, hn]

/-- A micro-step's event keeps the discipline. -/
theorem runMicro_keepsTraceInv {s t : State} {i : Instr} {m : Micro} (hinv : Inv s) (htr : TraceInv s)
    (hat : StandsAt s i m) (h : runMicro m s = .next t) : TraceInv t := by
  obtain ⟨howner, hlevel⟩ := busNeeded_eq_busSeen.mp hat.bus
  have hlimit := xferLimit_pos hinv.cfgLegal
  have hnext := runMicro_next m s t h
  cases m with
  | acquire =>
    obtain ⟨hfree, rfl⟩ | ⟨-, rfl⟩ := hnext
    · exact traceInv_emit htr rfl rfl (if_pos hfree)
    · exact htr
  | release | releaseCmd =>
    obtain ⟨hheld, rfl⟩ := hnext
    exact traceInv_emit htr rfl rfl (if_pos ⟨hheld, hlevel rfl⟩)
  | pin p lvl =>
    cases hnext
    exact traceInv_emit htr rfl rfl (if_neg (by simp [howner.mpr rfl]))
  | xferOp op skip =>
    obtain ⟨n, ok, e, hn, -, -, rfl⟩ := hnext
    refine traceInv_emit htr rfl rfl ?_
    rw [howner.mpr rfl]
    exact busNext_xfer ok (hlevel rfl) le_rfl hlimit hn
  | xferChunk src k skip =>
    obtain ⟨n, ok, e, hn, -, -, rfl⟩ := hnext
    obtain ⟨hlow, hhigh⟩ := payloadChunk_length s.cfg s.fb src hlimit (chunk_lt hat.micro)
    refine traceInv_emit htr rfl rfl ?_
    rw [howner.mpr rfl]
    exact busNext_xfer ok (hlevel rfl) hlow hhigh hn
  | entry k => obtain ⟨-, -, rfl⟩ | ⟨-, -, rfl⟩ | ⟨-, rfl⟩ := hnext <;> exact traceInv_silent htr rfl rfl rfl rfl
  | drawPixel _ _ => obtain ⟨_, -, rfl⟩ | ⟨-, rfl⟩ := hnext <;> exact traceInv_silent htr rfl rfl rfl rfl
  | startRefresh | openWindow | closeWindow | ret | drawStart _ => cases hnext; exact traceInv_silent htr rfl rfl rfl rfl
  | sampleBusy => obtain ⟨_, _, -, -, rfl⟩ := hnext; exact traceInv_emit htr rfl rfl rfl
  | exit _ => obtain ⟨-, rfl⟩ := hnext; exact traceInv_emit htr rfl rfl rfl
  | delay _ | pollDelay | logXfer _ | respondSent | drawEnd => cases hnext; exact traceInv_emit htr rfl rfl rfl

theorem Chosen.traceInv {s v : State} (h : Chosen s v) (htr : TraceInv s) : TraceInv v :=
  traceInv_silent htr h.cfg h.trace h.busOwner h.pins

theorem QuietStep.keepsTraceInv {s t : State} {q : Port} (h : QuietStep s t q) (htr : TraceInv s) : TraceInv t := by
  rcases h.trace with htrace | ⟨r, htrace⟩
  · exact traceInv_silent htr h.cfg htrace h.busOwner h.pins
  · exact traceInv_emit htr h.cfg htrace (by rw [h.busOwner, h.pins]; rfl)

/-- Settles O14: the invariant puts the lock and CS where each bus event needs them. -/
theorem stepKeepsBusDiscipline : Obligations.StepKeepsBusDiscipline := by
  intro s t hinv htr h
  cases step_underInv hinv h with
  | rest hv _ => exact hv.traceInv htr
  | quiet hv _ _ hquiet => exact hquiet.keepsTraceInv (hv.traceInv htr)
  | micro hv hvinv hat hrun => exact runMicro_keepsTraceInv hvinv (hv.traceInv htr) hat hrun

/-! ## The planes (O13) -/

/-! ### Bits of a plane's byte -/

theorem pixelMask_ne_zero (x : Nat) : pixelMask x ≠ 0 := by
  have h : ∀ k : Fin 8, (0x80 : Byte) >>> k.val ≠ 0 := by decide
  exact h ⟨x % 8, Nat.mod_lt _ (by omega)⟩

/-- Two pixels of one byte have different bits (20_memory.md R64). -/
theorem pixelMask_and_pixelMask {x x' : Nat} (h : x % 8 ≠ x' % 8) : pixelMask x &&& pixelMask x' = 0 := by
  have hbits : ∀ k k' : Fin 8, k ≠ k' → (0x80 : Byte) >>> k.val &&& (0x80 : Byte) >>> k'.val = 0 := by decide
  exact hbits ⟨x % 8, Nat.mod_lt _ (by omega)⟩ ⟨x' % 8, Nat.mod_lt _ (by omega)⟩ (by simpa using h)

/-- A write under one mask leaves the bits under another. -/
theorem withBit_and_of_disjoint {m m' : Byte} (h : m &&& m' = 0) (v : Byte) (b : Bool) :
    withBit v m b &&& m' = v &&& m' := by
  ext k hk
  have hbit : (m[k] && m'[k]) = false := by rw [← BitVec.getElem_and hk, h]; exact BitVec.getElem_zero hk
  cases b with
  | false => simp only [withBit, Bool.false_eq_true, if_false, BitVec.getElem_and, BitVec.getElem_not]; grind
  | true => simp only [withBit, if_true, BitVec.getElem_and, BitVec.getElem_or]; grind

/-- A pair of bits other than (0,1), written to both planes, leaves no pair (0,1). -/
theorem withBit_valid {b h m : Byte} {p q : Bool} (hinv : h &&& ~~~b = 0) (hpq : q = true → p = true) :
    withBit h m q &&& ~~~(withBit b m p) = 0 := by
  ext k hk
  have hbit : (h[k] && !b[k]) = false := by
    rw [← BitVec.getElem_not hk, ← BitVec.getElem_and hk, hinv]; exact BitVec.getElem_zero hk
  rw [BitVec.getElem_and, BitVec.getElem_not, show (0 : Byte)[k] = false from BitVec.getElem_zero hk]
  cases q with
  | false =>
    cases p with
    | false => simp only [withBit, Bool.false_eq_true, if_false, BitVec.getElem_and, BitVec.getElem_not]; grind
    | true => simp only [withBit, Bool.false_eq_true, if_false, if_true, BitVec.getElem_and, BitVec.getElem_not,
        BitVec.getElem_or]; grind
  | true => simp only [withBit, hpq rfl, if_true, BitVec.getElem_or]; grind

/-- No role is the pair (0,1) (43_framebuffer.md R230). -/
theorem rolePair_valid (r : Role) : (rolePair r).2 = true → (rolePair r).1 = true := by
  cases r <;> simp [rolePair]

/-! ### Addresses of pixels -/

theorem div8_lt_bpr {c : Cfg} {x : Nat} (h : x < c.width) : x / 8 < c.bpr := by
  rw [Cfg.bpr, ceilDiv]; omega

/-- A pixel's byte lies in its plane (20_memory.md R62). -/
theorem pixelIndex_lt {c : Cfg} {x y : Nat} (hx : x / 8 < c.bpr) (hy : y < c.height) : pixelIndex c x y < c.planeSize := by
  rw [pixelIndex, Cfg.planeSize]
  calc x / 8 + y * c.bpr < c.bpr + y * c.bpr := by omega
    _ = (y + 1) * c.bpr := by rw [Nat.succ_mul, Nat.add_comm]
    _ ≤ c.height * c.bpr := Nat.mul_le_mul_right _ hy
    _ = c.bpr * c.height := Nat.mul_comm _ _

/-- Pixels that share a byte stand in one row and one group of eight. -/
theorem pixelIndex_inj {c : Cfg} {x x' y y' : Nat} (hx : x / 8 < c.bpr) (hx' : x' / 8 < c.bpr)
    (h : pixelIndex c x y = pixelIndex c x' y') : x / 8 = x' / 8 ∧ y = y' := by
  simp only [pixelIndex] at h
  have hmod := congrArg (· % c.bpr) h
  have hdiv := congrArg (· / c.bpr) h
  simp only [Nat.add_mul_mod_self_right, Nat.mod_eq_of_lt hx, Nat.mod_eq_of_lt hx'] at hmod
  have hpos : 0 < c.bpr := by omega
  simp only [Nat.add_mul_div_right _ _ hpos, Nat.div_eq_of_lt hx, Nat.div_eq_of_lt hx', Nat.zero_add] at hdiv
  exact ⟨hmod, hdiv⟩

/-- A pixel write leaves every other pixel's bit as it was. -/
theorem readByte_writePixel_and_mask {f : FrameBuf} {c : Cfg} {x y x' y' : Nat} (r : Role) (p : Plane)
    (hb : Memory.wf (planeFill .black) f.black = true) (hh : Memory.wf (planeFill .hl) f.hl = true)
    (hx : x / 8 < c.bpr) (hx' : x' / 8 < c.bpr) (hne : x' ≠ x ∨ y' ≠ y) :
    (f.writePixel c x y r).readByte p (pixelIndex c x' y') &&& pixelMask x' =
      f.readByte p (pixelIndex c x' y') &&& pixelMask x' := by
  by_cases hi : pixelIndex c x' y' = pixelIndex c x y
  · obtain ⟨hdiv, rfl⟩ := pixelIndex_inj hx' hx hi
    have hmask := pixelMask_and_pixelMask (x := x) (x' := x') (by omega)
    rw [hi]
    cases p with
    | black => rw [readByte_writePixel_black f c x y' r hb, withBit_and_of_disjoint hmask]
    | hl => rw [readByte_writePixel_hl f c x y' r hh, withBit_and_of_disjoint hmask]
  · rw [readByte_writePixel_other f c x y r p _ hi]

theorem pixelPair_writePixel_other {f : FrameBuf} {c : Cfg} {x y x' y' : Nat} (r : Role)
    (hb : Memory.wf (planeFill .black) f.black = true) (hh : Memory.wf (planeFill .hl) f.hl = true)
    (hx : x / 8 < c.bpr) (hx' : x' / 8 < c.bpr) (hne : x' ≠ x ∨ y' ≠ y) :
    (f.writePixel c x y r).pixelPair c x' y' = f.pixelPair c x' y' := by
  simp only [FrameBuf.pixelPair, readByte_writePixel_and_mask r _ hb hh hx hx' hne]

/-! ### What keeps the plane invariant -/

theorem readByte_congr {f g : FrameBuf} (hblack : g.black = f.black) (hhl : g.hl = f.hl) (p : Plane) (a : Nat) :
    g.readByte p a = f.readByte p a := by
  cases p with
  | black => simp only [FrameBuf.readByte, FrameBuf.cells, hblack]
  | hl => simp only [FrameBuf.readByte, FrameBuf.cells, hhl]

/-- The invariant speaks of the configuration and the planes alone. -/
theorem planeInv_congr {s t : State} (h : PlaneInv s) (hcfg : t.cfg = s.cfg) (hblack : t.fb.black = s.fb.black)
    (hhl : t.fb.hl = s.fb.hl) : PlaneInv t where
  blackWf := by rw [hblack]; exact h.blackWf
  hlWf := by rw [hhl]; exact h.hlWf
  blackBelow := by rw [hcfg, hblack]; exact h.blackBelow
  hlBelow := by rw [hcfg, hhl]; exact h.hlBelow
  noInvalid a := by simp only [readByte_congr hblack hhl]; exact h.noInvalid a
  pads := by rw [hcfg]; simp only [FrameBuf.pixelPair, readByte_congr hblack hhl]; exact h.pads

/-- WRITE_PIXEL in bounds keeps the invariant (43_framebuffer.md R230). -/
theorem planeInv_writePixel {s : State} (h : PlaneInv s) {x y : Nat} (r : Role) (hx : x < s.cfg.width)
    (hy : y < s.cfg.height) : PlaneInv { s with fb := s.fb.writePixel s.cfg x y r } where
  blackWf := (wf_writePixel s.fb s.cfg x y r h.blackWf h.hlWf).1
  hlWf := (wf_writePixel s.fb s.cfg x y r h.blackWf h.hlWf).2
  blackBelow := below_write _ _ _ _ _ h.blackBelow (pixelIndex_lt (div8_lt_bpr hx) hy)
  hlBelow := below_write _ _ _ _ _ h.hlBelow (pixelIndex_lt (div8_lt_bpr hx) hy)
  noInvalid a := by
    by_cases ha : a = pixelIndex s.cfg x y
    · subst ha
      rw [readByte_writePixel_black _ _ _ _ _ h.blackWf, readByte_writePixel_hl _ _ _ _ _ h.hlWf]
      exact withBit_valid (h.noInvalid _) (rolePair_valid r)
    · rw [readByte_writePixel_other _ _ _ _ _ _ _ ha, readByte_writePixel_other _ _ _ _ _ _ _ ha]
      exact h.noInvalid a
  pads x' y' hy' hx' hpad := by
    refine (pixelPair_writePixel_other r h.blackWf h.hlWf (div8_lt_bpr hx) ?_ (.inl ?_)).trans (h.pads x' y' hy' hx' hpad)
    · exact Nat.div_lt_of_lt_mul hpad
    · have hge : s.cfg.width ≤ x' := hx'
      omega

/-- FB_CLEAR's planes meet the invariant (R234). -/
theorem planeInv_cleared (s : State) : PlaneInv { s with fb := s.fb.cleared } where
  blackWf := rfl
  hlWf := rfl
  blackBelow := rfl
  hlBelow := rfl
  noInvalid a := by rw [readByte_cleared, readByte_cleared]; rfl
  pads x y _ _ _ := by
    have hones : planeFill .black &&& pixelMask x = pixelMask x := BitVec.allOnes_and
    have hzeros : planeFill .hl &&& pixelMask x = 0 := BitVec.zero_and
    simp only [FrameBuf.pixelPair, readByte_cleared, hones, hzeros]
    exact congrArg₂ Prod.mk (decide_eq_true (pixelMask_ne_zero x)) rfl

/-- FB_DRAW's pixels are those of the panel, and no other instruction draws (R236). -/
theorem drawPixel_lt {c : Cfg} {i : Instr} {pc k : Nat} {src : Source} (h : stepAt c i pc = some (.drawPixel src k)) :
    k < c.width * c.height := by
  by_cases hdraw : ∃ src', i = .fbDraw src'
  · obtain ⟨src', rfl⟩ := hdraw
    rcases drawStepAt_cases h with ⟨-, h⟩ | ⟨hpos, hpc, h⟩ | ⟨-, h⟩ <;> cases h
    omega
  · cases hp : isProtocol i with
    | true => simpa [InBody] using protocol_micro hp h
    | false => simpa [InBody] using channel_micro hp (fun src' hi => hdraw ⟨src', hi⟩) h

/-- A micro-step of an instruction keeps the planes: FB_DRAW's pixels are those of the panel. -/
theorem runMicro_keepsPlaneInv {s t : State} {i : Instr} {m : Micro} (hinv : PlaneInv s)
    (hm : stepAt s.cfg i s.seq.pc = some m) (h : runMicro m s = .next t) : PlaneInv t := by
  have hnext := runMicro_next m s t h
  have same (hcfg : t.cfg = s.cfg) (hblack : t.fb.black = s.fb.black) (hhl : t.fb.hl = s.fb.hl) : PlaneInv t :=
    planeInv_congr hinv hcfg hblack hhl
  cases m with
  | drawPixel src k =>
    obtain ⟨r, -, rfl⟩ | ⟨-, rfl⟩ := hnext
    · have hk := drawPixel_lt hm
      have hw : 0 < s.cfg.width := Nat.pos_of_ne_zero fun h0 => by simp [h0] at hk
      have hy : k / s.cfg.width < s.cfg.height := Nat.div_lt_of_lt_mul hk
      exact planeInv_congr (planeInv_writePixel hinv r (Nat.mod_lt k hw) hy) rfl rfl rfl
    · exact same rfl rfl rfl
  | acquire => obtain ⟨-, rfl⟩ | ⟨-, rfl⟩ := hnext <;> exact same rfl rfl rfl
  | entry k => obtain ⟨-, -, rfl⟩ | ⟨-, -, rfl⟩ | ⟨-, rfl⟩ := hnext <;> exact same rfl rfl rfl
  | release | releaseCmd | exit _ => obtain ⟨-, rfl⟩ := hnext; exact same rfl rfl rfl
  | sampleBusy => obtain ⟨_, _, -, -, rfl⟩ := hnext; exact same rfl rfl rfl
  | xferOp _ _ | xferChunk _ _ _ => obtain ⟨_, _, _, -, -, -, rfl⟩ := hnext; exact same rfl rfl rfl
  | pin _ _ | delay _ | pollDelay | logXfer _ | startRefresh | openWindow | closeWindow | respondSent | ret | drawStart _
  | drawEnd => cases hnext; exact same rfl rfl rfl

theorem exec_keepsPlaneInv {s t : State} {i : Instr} (hinv : PlaneInv s) (h : exec i s = .next t) : PlaneInv t := by
  rcases exec_cases i s with ⟨m, hm, he⟩ | ⟨b, hl, -, -, -, he⟩ | ⟨-, he⟩ | ⟨x, y, r, -, he⟩ | ⟨x, y, -, he⟩ | ⟨-, he⟩ |
    ⟨-, he⟩ <;> rw [he] at h
  · exact runMicro_keepsPlaneInv hinv hm h
  · cases h; exact planeInv_congr hinv rfl rfl rfl
  · cases h; exact planeInv_congr hinv rfl rfl rfl
  · rw [execFbSet_eq] at h
    cases h
    by_cases hb : inBounds s.cfg x.toNat y.toNat = true
    · obtain ⟨hx, hy⟩ : x.toNat < s.cfg.width ∧ y.toNat < s.cfg.height := by simpa [inBounds] using hb
      exact planeInv_congr (planeInv_writePixel hinv r hx hy) rfl (by simp only [hb, if_true]; rfl)
        (by simp only [hb, if_true]; rfl)
    · exact planeInv_congr hinv rfl (by simp only [hb]; rfl) (by simp only [hb]; rfl)
  · obtain ⟨-, _, -, rfl⟩ | ⟨-, -, rfl⟩ | ⟨-, _, rfl⟩ := execFbGet_next x y s t h <;> exact planeInv_congr hinv rfl rfl rfl
  · rw [execFbClear_eq] at h; cases h; exact planeInv_congr (planeInv_cleared s) rfl rfl rfl
  · cases h

/-- Settles O13: the only writes are those of in-bounds pixels and FB_CLEAR's. -/
theorem stepKeepsPlaneInv : Obligations.StepKeepsPlaneInv := by
  intro s t hinv h
  obtain ⟨e, p, hstep⟩ := step_from_choice s
  have hu : PlaneInv { s with env := e, cur := p } := planeInv_congr hinv rfl rfl rfl
  rcases hstep with h' | ⟨hp, h' | h' | ⟨i, h'⟩ | ⟨i, -, h'⟩⟩ <;> rw [h'] at h
  · cases h; exact planeInv_congr hinv rfl rfl rfl
  · cases h; exact hu
  · cases h; exact planeInv_congr hu rfl rfl rfl
  · exact exec_keepsPlaneInv (planeInv_congr hu (accept_cfg _ i) rfl rfl) h
  · exact exec_keepsPlaneInv hu h

/-! ## The sticky flags (O17, O19) -/

/-- Between `s` and `t` no sticky flag is cleared and the error count has not fallen. -/
structure StickyKept (s t : State) : Prop where
  xferErr : s.err.xferErr = true → t.err.xferErr = true
  cnt : s.err.cnt.toNat ≤ t.err.cnt.toNat
  seqErr : s.seqErr = true → t.seqErr = true
  race : s.fb.race = true → t.fb.race = true
  fault : ∀ r, s.fault = some r → t.fault = some r

theorem le_satIncr (n : BitVec 32) : n.toNat ≤ (satIncr n).toNat := by
  unfold satIncr
  split
  · next h => rw [h]
  · next h =>
    have hlt : n.toNat + 1 < 2 ^ 32 := by
      have := n.isLt
      have hne : n.toNat ≠ 0xFFFFFFFF := fun he => h (BitVec.eq_of_toNat_eq he)
      omega
    rw [BitVec.toNat_add_of_lt (by simpa using hlt)]
    exact Nat.le_add_right _ _

/-- A state with the same error registers and SEQ_ERR, whose race flag and FAULT are kept. -/
theorem stickyKept_of_same {s t : State} (herr : t.err = s.err) (hseq : t.seqErr = s.seqErr)
    (hrace : s.fb.race = true → t.fb.race = true) (hfault : ∀ r, s.fault = some r → t.fault = some r) : StickyKept s t :=
  ⟨by rw [herr]; exact id, by rw [herr], by rw [hseq]; exact id, hrace, hfault⟩

/-- A fault raised leaves one that was raised before it (60_exceptions.md R268). -/
theorem fault_or_some {o : Option Fault} (f r : Fault) (h : o = some r) : o.or (some f) = some r := by
  rw [h]; rfl

/-- A race check leaves a flag that was set (20_memory.md R76). -/
theorem race_or {a : Bool} (b : Bool) (h : a = true) : (a || b) = true := by
  rw [h]; rfl

theorem runMicro_stickyKept {m : Micro} {s t : State} (h : runMicro m s = .next t) : StickyKept s t := by
  have hnext := runMicro_next m s t h
  have same (herr : t.err = s.err) (hseq : t.seqErr = s.seqErr) (hrace : t.fb.race = s.fb.race)
      (hfault : t.fault = s.fault) : StickyKept s t :=
    stickyKept_of_same herr hseq (fun hr => hrace.trans hr) fun r hr => hfault.trans hr
  cases m with
  | logXfer what =>
    cases hnext
    exact ⟨fun _ => rfl, le_satIncr _, id, id, fun _ => id⟩
  | entry k =>
    obtain ⟨-, -, rfl⟩ | ⟨-, -, rfl⟩ | ⟨-, rfl⟩ := hnext
    · exact same rfl rfl rfl rfl
    · exact ⟨id, le_rfl, fun _ => rfl, id, fun _ => id⟩
    · exact same rfl rfl rfl rfl
  | openWindow | drawStart _ => cases hnext; exact stickyKept_of_same rfl rfl (race_or _) fun _ => id
  | drawPixel _ _ =>
    obtain ⟨_, -, rfl⟩ | ⟨-, rfl⟩ := hnext
    · exact same rfl rfl rfl rfl
    · exact stickyKept_of_same rfl rfl id fun r => fault_or_some _ r
  | acquire => obtain ⟨-, rfl⟩ | ⟨-, rfl⟩ := hnext <;> exact same rfl rfl rfl rfl
  | release | releaseCmd | exit _ => obtain ⟨-, rfl⟩ := hnext; exact same rfl rfl rfl rfl
  | sampleBusy => obtain ⟨_, _, -, -, rfl⟩ := hnext; exact same rfl rfl rfl rfl
  | xferOp _ _ | xferChunk _ _ _ => obtain ⟨_, _, _, -, -, -, rfl⟩ := hnext; exact same rfl rfl rfl rfl
  | pin _ _ | delay _ | pollDelay | startRefresh | closeWindow | respondSent | ret | drawEnd =>
    cases hnext; exact same rfl rfl rfl rfl

/-- Only ENTRY from a DSTATE that is not allowed sets SEQ_ERR (41_protocol.md R152). -/
theorem runMicro_seqErr {m : Micro} {s t : State} (h : runMicro m s = .next t) :
    t.seqErr = s.seqErr ∨ ∃ k, m = .entry k ∧ allowedFrom k s.dstate = false := by
  have hnext := runMicro_next m s t h
  cases m with
  | entry k =>
    obtain ⟨-, -, rfl⟩ | ⟨-, hout, rfl⟩ | ⟨-, rfl⟩ := hnext
    · exact .inl rfl
    · exact .inr ⟨k, rfl, hout⟩
    · exact .inl rfl
  | acquire => obtain ⟨-, rfl⟩ | ⟨-, rfl⟩ := hnext <;> exact .inl rfl
  | drawPixel _ _ => obtain ⟨_, -, rfl⟩ | ⟨-, rfl⟩ := hnext <;> exact .inl rfl
  | release | releaseCmd | exit _ => obtain ⟨-, rfl⟩ := hnext; exact .inl rfl
  | sampleBusy => obtain ⟨_, _, -, -, rfl⟩ := hnext; exact .inl rfl
  | xferOp _ _ | xferChunk _ _ _ => obtain ⟨_, _, _, -, -, -, rfl⟩ := hnext; exact .inl rfl
  | pin _ _ | delay _ | pollDelay | logXfer _ | startRefresh | openWindow | closeWindow | respondSent | ret | drawStart _
  | drawEnd => cases hnext; exact .inl rfl

/-- What an instruction does is its micro-step, or keeps the sticky flags and SEQ_ERR as it is. -/
theorem exec_micro_or_kept {i : Instr} {s t : State} (h : exec i s = .next t) :
    (∃ m, stepAt s.cfg i s.seq.pc = some m ∧ runMicro m s = .next t) ∨ (StickyKept s t ∧ t.seqErr = s.seqErr) := by
  rcases exec_cases i s with ⟨m, hm, he⟩ | ⟨b, hl, -, -, -, he⟩ | ⟨-, he⟩ | ⟨x, y, r, -, he⟩ | ⟨x, y, -, he⟩ | ⟨-, he⟩ |
    ⟨-, he⟩ <;> rw [he] at h
  · exact .inl ⟨m, hm, h⟩
  · cases h; exact .inr ⟨stickyKept_of_same rfl rfl id fun _ => id, rfl⟩
  · cases h; exact .inr ⟨stickyKept_of_same rfl rfl id fun _ => id, rfl⟩
  · rw [execFbSet_eq] at h
    cases h
    refine .inr ⟨stickyKept_of_same rfl rfl (fun hr => ?_) fun _ => id, rfl⟩
    by_cases hb : inBounds s.cfg x.toNat y.toNat = true
    · simp only [if_pos hb]; exact race_or _ hr
    · simp only [if_neg hb]; exact hr
  · obtain ⟨-, _, -, rfl⟩ | ⟨-, -, rfl⟩ | ⟨-, _, rfl⟩ := execFbGet_next x y s t h
    · exact .inr ⟨stickyKept_of_same rfl rfl (race_or _) fun _ => id, rfl⟩
    · exact .inr ⟨stickyKept_of_same rfl rfl (race_or _) fun r => fault_or_some _ r, rfl⟩
    · exact .inr ⟨stickyKept_of_same rfl rfl id fun _ => id, rfl⟩
  · rw [execFbClear_eq] at h
    cases h
    exact .inr ⟨stickyKept_of_same rfl rfl (race_or _) fun _ => id, rfl⟩
  · cases h

theorem exec_stickyKept {i : Instr} {s t : State} (h : exec i s = .next t) : StickyKept s t := by
  rcases exec_micro_or_kept h with ⟨m, -, hrun⟩ | ⟨hkept, -⟩
  · exact runMicro_stickyKept hrun
  · exact hkept

/-- Settles O17: each kind of step sets flags, counts up or leaves them. -/
theorem stickyFlagsStay : Obligations.StickyFlagsStay := by
  intro s t h
  have hkept : StickyKept s t := by
    obtain ⟨e, p, hstep⟩ := step_from_choice s
    rcases hstep with h' | ⟨-, h' | h' | ⟨i, h'⟩ | ⟨i, -, h'⟩⟩ <;> rw [h'] at h
    · cases h; exact stickyKept_of_same rfl rfl id fun _ => id
    · cases h; exact stickyKept_of_same rfl rfl id fun _ => id
    · cases h; exact stickyKept_of_same rfl rfl id fun _ => id
    · obtain ⟨hxfer, hcnt, hseq, hrace, hfault⟩ := exec_stickyKept h
      exact ⟨hxfer, hcnt, hseq, hrace, hfault⟩
    · obtain ⟨hxfer, hcnt, hseq, hrace, hfault⟩ := exec_stickyKept h
      exact ⟨hxfer, hcnt, hseq, hrace, hfault⟩
  obtain ⟨hxfer, hcnt, hseq, hrace, hfault⟩ := hkept
  exact ⟨hxfer, hcnt, hseq, hrace, hfault⟩

/-- Settles O19: every other step leaves SEQ_ERR as it is. -/
theorem seqErrOnlyAtEntry : Obligations.SeqErrOnlyAtEntry := by
  intro i s t h hclear hset
  have hchanged : t.seqErr ≠ s.seqErr := by rw [hclear, hset]; exact nofun
  rcases exec_micro_or_kept h with ⟨m, hm, hrun⟩ | ⟨-, hsame⟩
  · obtain ⟨k, rfl, hout⟩ := (runMicro_seqErr hrun).resolve_left hchanged
    exact ⟨k, hm, hout⟩
  · exact absurd hsame hchanged

/-! ## What a step runs (O8) -/

/-- A port that has a next request and accepts it: the request leaves the inbox and starts at `pc` 0 (10_state.md R21). -/
theorem accept_eq {u : State} (hcur : u.curOk) {r : Request} {rest : List Request} (hinbox : u.port.inbox = r :: rest)
    (i : Instr) : u.accept i = { u with
      ports := u.ports.set u.cur
        { seq := { op := .busy i, pc := 0, xf := false, sq := false, sent := 0, ok := true },
          bind := u.port.bind, inbox := rest } } := by
  have hpop : u.popInbox.port = { u.port with inbox := rest } :=
    (setPort_port u _ hcur).trans (by rw [hinbox]; rfl)
  have hports : (u.accept i).ports = u.ports.set u.cur
      { u.popInbox.port with seq := { Seq.idle with op := .busy i } } := set_cur_twice u _ _
  rw [hpop] at hports
  exact congrArg (fun l => ({ u with ports := l } : State)) hports

theorem fetchPort_busy {u : State} {i : Instr} (h : u.seq.op = .busy i) : fetchPort u = .run i u := by
  unfold fetchPort; rw [h]

theorem fetchPort_stopped {u : State} (h : u.seq.op = .stopped) : fetchPort u = .rest u := by
  unfold fetchPort; rw [h]

theorem fetchPort_no_request {u : State} (h : u.seq.op = .idle) (hinbox : u.port.inbox = []) : fetchPort u = .rest u := by
  unfold fetchPort; rw [h, hinbox]

theorem fetchPort_accepts {u : State} {r : Request} {rest : List Request} {i : Instr} (h : u.seq.op = .idle)
    (hinbox : u.port.inbox = r :: rest) (hdecode : decode (.request r.word r.blocks) = .ok i) :
    fetchPort u = .run i (u.accept i) := by
  unfold fetchPort; rw [h, hinbox]; simp only [hdecode]

theorem step_of_fetch_run {s t : State} {i : Instr} (h : fetch s = .run i t) : step s = exec i t := by
  unfold step; rw [h]

theorem step_of_fetch_rest {s t : State} (h : fetch s = .rest t) : step s = .next t := by
  unfold step; rw [h]

/-- Settles O8: the cases of `fetchPort`, with the accepted request's record written out. -/
theorem stepRunsDecodedInstruction : Obligations.StepRunsDecodedInstruction := by
  intro s v p hdraw
  have hv : v = { s with env := v.env } := by
    have hsnd := drawPort_snd s
    rwa [hdraw] at hsnd
  have hfetch : fetch s = if p < s.ports.length then fetchPort (v.running p) else .rest v := by rw [fetch, hdraw]
  refine ⟨hv, fun hle => step_of_fetch_rest (hfetch.trans (if_neg (Nat.not_lt.mpr hle))), fun hlt => ?_⟩
  have hfetch := hfetch.trans (if_pos hlt)
  have hports : v.ports = s.ports := by rw [hv]
  have hport : (v.running p).port = s.portAt p := congrArg (·.getD p Port.idle) hports
  have hseq : (v.running p).seq = (s.portAt p).seq := congrArg Port.seq hport
  have hcur : (v.running p).curOk := hlt.trans_eq (congrArg List.length hports.symm)
  refine ⟨fun i hop => ?_, fun r rest i hop hinbox hdecode => ?_, fun hop hinbox => ?_, fun hop => ?_⟩
  · exact step_of_fetch_run (hfetch.trans (fetchPort_busy (hseq ▸ hop)))
  · have haccept := fetchPort_accepts (hseq ▸ hop) (hport ▸ hinbox) hdecode
    rw [step_of_fetch_run (hfetch.trans haccept), accept_eq hcur (hport ▸ hinbox), hport, ← hports]; rfl
  · exact step_of_fetch_rest (hfetch.trans (fetchPort_no_request (hseq ▸ hop) (hport ▸ hinbox)))
  · exact step_of_fetch_rest (hfetch.trans (fetchPort_stopped (hseq ▸ hop)))

end Sys2Proof.Proofs
end

section
/-! PROOFS. The family of spec/20_memory.md: where a pixel lies (O44), what FB_SET writes (O45), what FB_GET reads (O46), and
which steps set FB_RACE (O53). -/

namespace Sys2Proof.Proofs

open Sys2Proof.Machine Sys2Proof.Laws

/-! ## Pixel addresses (20_memory.md R61, R62) -/

theorem inBounds_iff {c : Cfg} {x y : Nat} : inBounds c x y = true ↔ x < c.width ∧ y < c.height := by
  simp [inBounds]

/-- Settles O44: a byte below `PLANE_SIZE` is at most the last one, and there is a last one. -/
theorem pixelIndexInPlane : Obligations.PixelIndexInPlane := by
  intro c x y hx hy
  have hlt := pixelIndex_lt (div8_lt_bpr hx) hy
  omega

/-! ## FB_SET (43_framebuffer.md R231) -/

theorem rolePair_fst (r : Role) : (rolePair r).1 = decide (r ≠ .black) := by cases r <;> rfl

theorem rolePair_snd (r : Role) : (rolePair r).2 = decide (r = .highlight) := by cases r <;> rfl

/-- A plane after a pixel write, at every address, from the byte at the pixel's own (R230). -/
theorem readByte_writePixel_eq_ite {f : FrameBuf} {c : Cfg} {x y : Nat} {r : Role} {p : Plane} {v : Byte}
    (h : (f.writePixel c x y r).readByte p (pixelIndex c x y) = v) (k : Nat) :
    (f.writePixel c x y r).readByte p k = if k = pixelIndex c x y then v else f.readByte p k := by
  split
  · next hk => rw [hk, h]
  · next hk => exact readByte_writePixel_other f c x y r p k hk

/-- Settles O45: FB_SET in bounds is the race check and a pixel write, which touches one byte of each plane. -/
theorem fbSetWritesPixel : Obligations.FbSetWritesPixel := by
  intro x y role s hb hh c a m write answered
  have hexec : exec (.fbSet x y role) s = _ := execFbSet_eq x y role s
  refine ⟨fun hin => ⟨(raceOnWrite s.fb s.cur).writePixel c x.toNat y.toNat role, ?_, ?_, ?_, ?_, rfl, rfl⟩, fun hout => ?_⟩
  · rw [hexec, if_pos (inBounds_iff.mpr hin)]
  · exact readByte_writePixel_eq_ite ((readByte_writePixel_black _ _ _ _ _ hb).trans (by rw [rolePair_fst]; rfl))
  · exact readByte_writePixel_eq_ite ((readByte_writePixel_hl _ _ _ _ _ hh).trans (by rw [rolePair_snd]; rfl))
  · rw [writePixel_race, raceOnWrite_eq]
  · rw [hexec, if_neg (mt inBounds_iff.mp hout)]

/-! ## FB_GET (43_framebuffer.md R232) -/

section FbGet

variable {x y : BitVec 12} {s : State}

/-- In bounds, a pair that stands for a role: the race check and the role. -/
theorem exec_fbGet_role {r : Role} (hin : x.toNat < s.cfg.width ∧ y.toNat < s.cfg.height)
    (hpair : roleOfPair (s.fb.pixelPair s.cfg x.toNat y.toNat) = some r) :
    exec (.fbGet x y) s = .next (({ s with fb := raceOnRead s.fb s.cur } : State).respond (okResp (.role r))) := by
  simp only [exec, execFbGet, if_pos (inBounds_iff.mpr hin), hpair]

/-- In bounds, the pair (0,1): the race check and the fault. -/
theorem exec_fbGet_invalid (hin : x.toNat < s.cfg.width ∧ y.toNat < s.cfg.height)
    (hpair : roleOfPair (s.fb.pixelPair s.cfg x.toNat y.toNat) = none) :
    exec (.fbGet x y) s = .next (({ s with fb := raceOnRead s.fb s.cur } : State).raiseFault .invalidPixel) := by
  simp only [exec, execFbGet, if_pos (inBounds_iff.mpr hin), hpair]

/-- Out of bounds: a drawn role code, answered with `OOB`. -/
theorem exec_fbGet_oob (hout : ¬(x.toNat < s.cfg.width ∧ y.toNat < s.cfg.height)) :
    exec (.fbGet x y) s = .next (s.drawRole.2.respond (refuseResp .oob (.role s.drawRole.1))) := by
  simp only [exec, execFbGet, if_neg (mt inBounds_iff.mp hout)]

end FbGet

/-- `FAULT` takes a reason only when it is none (60_exceptions.md R267). -/
theorem fault_or_eq_ite (o : Option Fault) (r : Fault) : o.or (some r) = if o = none then some r else o := by
  cases o <;> rfl

/-- Settles O46: the pair read, its role, and the race check. -/
theorem fbGetReadsPixel : Obligations.FbGetReadsPixel := by
  intro x y s c a m b h f answered
  have hpair : s.fb.pixelPair c x.toNat y.toNat = (b, h) := rfl
  have hrace : raceOnRead s.fb s.cur = f := raceOnRead_eq s.fb s.cur
  have hrole (r : Role) (hin : x.toNat < c.width ∧ y.toNat < c.height) (hr : roleOfPair (b, h) = some r) :
      exec (.fbGet x y) s = .next (answered s.env f .ok (.role r)) := by
    rw [exec_fbGet_role hin (hpair ▸ hr), hrace]; rfl
  refine ⟨fun hin => ⟨fun hb hh => ?_, fun hb hh => ?_, fun hb hh => ?_, fun hb hh => ?_⟩, fun hout => ?_⟩
  · exact hrole .white hin (by rw [hb, hh]; rfl)
  · exact hrole .black hin (by rw [hb, hh]; rfl)
  · exact hrole .highlight hin (by rw [hb, hh]; rfl)
  · have hnone : roleOfPair (s.fb.pixelPair c x.toNat y.toNat) = none := by rw [hpair, hb, hh]; rfl
    rw [exec_fbGet_invalid hin hnone, hrace, ← fault_or_eq_ite]; rfl
  · exact ⟨s.drawRole.1, exec_fbGet_oob hout⟩

/-! ## FB_RACE (20_memory.md R76) -/

/-- A micro-step sets FB_RACE exactly when it starts a draw or opens an upload window over another access. -/
theorem runMicro_race {m : Micro} {s t : State} (h : runMicro m s = .next t) :
    t.fb.race = (s.fb.race || microRaces s (some m)) := by
  have hnext := runMicro_next m s t h
  have same (hm : microRaces s (some m) = false) (hrace : t.fb.race = s.fb.race) :
      t.fb.race = (s.fb.race || microRaces s (some m)) := by rw [hm, hrace, Bool.or_false]
  cases m with
  | openWindow => cases hnext; rfl
  | drawStart _ => cases hnext; simp only [microRaces, Bool.decide_or]
  | drawPixel _ _ => obtain ⟨_, -, rfl⟩ | ⟨-, rfl⟩ := hnext <;> exact same rfl rfl
  | entry _ => obtain ⟨-, -, rfl⟩ | ⟨-, -, rfl⟩ | ⟨-, rfl⟩ := hnext <;> exact same rfl rfl
  | acquire => obtain ⟨-, rfl⟩ | ⟨-, rfl⟩ := hnext <;> exact same rfl rfl
  | release | releaseCmd | exit _ => obtain ⟨-, rfl⟩ := hnext; exact same rfl rfl
  | sampleBusy => obtain ⟨_, _, -, -, rfl⟩ := hnext; exact same rfl rfl
  | xferOp _ _ | xferChunk _ _ _ => obtain ⟨_, _, _, -, -, -, rfl⟩ := hnext; exact same rfl rfl
  | pin _ _ | delay _ | pollDelay | logXfer _ | startRefresh | closeWindow | respondSent | ret | drawEnd =>
    cases hnext; exact same rfl rfl

/-- An instruction that stands at a micro-step races as that micro-step does. -/
theorem racesAt_of_stepAt {i : Instr} {s : State} {m : Micro} (hm : stepAt s.cfg i s.seq.pc = some m) :
    racesAt s i = microRaces s (some m) := by
  cases i with
  | fbSet _ _ _ | fbGet _ _ | fbClear => simp [stepAt, stepList] at hm
  | init | display _ _ | displayFb | clear | sleep | status | fbDraw _ | chCmd _ _ | chData _ | wSwreset | wAutowriteHl _
  | wAutowriteBw _ | wSoftstart _ | wGate _ | wDataEntry _ | wRamxWindow _ | wRamyWindow _ | wBorder _ | wTempSensor _
  | wUpdateCtrl2 _ | wMasterAct | wWriteBw _ | wWriteHl _ | wRamxCounter _ | wRamyCounter _ | wDeepSleep =>
    exact congrArg (microRaces s) hm

theorem execFbSet_race {x y : BitVec 12} {role : Role} {s t : State} (h : execFbSet x y role s = .next t) :
    t.fb.race = (s.fb.race || racesAt s (.fbSet x y role)) := by
  rw [execFbSet_eq] at h
  cases h
  by_cases hin : x.toNat < s.cfg.width ∧ y.toNat < s.cfg.height
  · simp only [if_pos (inBounds_iff.mpr hin), writePixel_race, raceOnWrite_eq, racesAt, decide_eq_true hin, Bool.true_and]
  · simp only [if_neg (mt inBounds_iff.mp hin), racesAt, decide_eq_false hin, Bool.false_and, Bool.or_false]

theorem execFbGet_race {x y : BitVec 12} {s t : State} (h : execFbGet x y s = .next t) :
    t.fb.race = (s.fb.race || racesAt s (.fbGet x y)) := by
  by_cases hin : x.toNat < s.cfg.width ∧ y.toNat < s.cfg.height
  · have hrace : t.fb = raceOnRead s.fb s.cur := by
      obtain ⟨-, _, -, rfl⟩ | ⟨-, -, rfl⟩ | ⟨hout, -⟩ := execFbGet_next x y s t h
      · rfl
      · rfl
      · rw [inBounds_iff.mpr hin] at hout; cases hout
    rw [hrace, raceOnRead_eq, racesAt, decide_eq_true hin, Bool.true_and]
  · cases (exec_fbGet_oob hin).symm.trans h
    simp only [racesAt, decide_eq_false hin, Bool.false_and, Bool.or_false]; rfl

/-- Settles O53: a micro-step, or one of the requests of one step. -/
theorem raceFlagRule : Obligations.RaceFlagRule := by
  intro i s t h
  rcases exec_cases i s with ⟨m, hm, he⟩ | ⟨b, hl, rfl, hpc, -, he⟩ | ⟨rfl, he⟩ | ⟨x, y, r, rfl, he⟩ | ⟨x, y, rfl, he⟩ |
    ⟨rfl, he⟩ | ⟨-, he⟩ <;> rw [he] at h
  · rw [racesAt_of_stepAt hm]; exact runMicro_race h
  · cases h
    have hentry : stepAt s.cfg (.display b hl) s.seq.pc = some (.entry .display) := by rw [hpc]; rfl
    rw [racesAt_of_stepAt hentry]; exact (Bool.or_false _).symm
  · cases h; exact (Bool.or_false _).symm
  · exact execFbSet_race h
  · exact execFbGet_race h
  · cases h
    show (raceOnWrite s.fb s.cur).race = _
    rw [raceOnWrite_eq, racesAt]
  · cases h

end Sys2Proof.Proofs
end

section
/-! PROOFS. The family of spec/30_encoding.md: decode and encode (O1, O2), the illegal requests (O3), the fields of a request
word (O4), the bytes of a wire command (O5), and the runs of SEND_COMMAND (O26, O30). -/

namespace Sys2Proof.Proofs

open Sys2Proof.Machine Sys2Proof.Laws

/-- Settles O1: the decoder reads each word. -/
theorem decodesSpecWords : Obligations.DecodesSpecWords :=
  ⟨rfl, rfl, rfl, rfl, rfl, rfl, rfl, rfl, rfl, rfl, rfl, rfl, rfl, rfl⟩

/-! ## The fields of a request word as numbers (30_encoding.md R91) -/

/-- A field is the bits of the word from its lowest on. -/
theorem toNat_field (w : Word) (start len : Nat) :
    (w.extractLsb' start len).toNat = w.toNat / 2 ^ start % 2 ^ len := by
  rw [BitVec.extractLsb'_toNat, Nat.shiftRight_eq_div_pow]

section Fields

variable (w : Word)

theorem opField_toNat : (opField w).toNat = opNumber w := by
  have hlt := w.isLt
  rw [opField, toNat_field, opNumber]
  omega

theorem rsvField_toNat : (rsvField w).toNat = w.toNat / 2 ^ 26 % 2 ^ 2 := toNat_field w 26 2
theorem roleField_toNat : (roleField w).toNat = w.toNat / 2 ^ 24 % 2 ^ 2 := toNat_field w 24 2
theorem xField_toNat : (xField w).toNat = w.toNat / 2 ^ 12 % 2 ^ 12 := toNat_field w 12 12
theorem midField_toNat : (midField w).toNat = w.toNat / 2 ^ 8 % 2 ^ 20 := toNat_field w 8 20

theorem yField_toNat : (yField w).toNat = w.toNat % 2 ^ 12 := by rw [yField, toNat_field, pow_zero, Nat.div_one]
theorem opcodeField_toNat : (opcodeField w).toNat = w.toNat % 2 ^ 8 := by
  rw [opcodeField, toNat_field, pow_zero, Nat.div_one]
theorem lowField_toNat : (lowField w).toNat = w.toNat % 2 ^ 28 := by rw [lowField, toNat_field, pow_zero, Nat.div_one]

end Fields

/-! ### A word is its fields -/

theorem word_eq_of_opField_lowField {w w' : Word} (hop : opField w = opField w') (hlow : lowField w = lowField w') :
    w = w' := by
  simp only [← BitVec.toNat_inj, opField_toNat, opNumber, lowField_toNat] at hop hlow ⊢
  omega

/-- The low 28 bits of a word by the fields of FB_SET and FB_GET. -/
theorem lowField_eq_of_fields {w w' : Word} (hrsv : rsvField w = rsvField w') (hrole : roleField w = roleField w')
    (hx : xField w = xField w') (hy : yField w = yField w') : lowField w = lowField w' := by
  simp only [← BitVec.toNat_inj, rsvField_toNat, roleField_toNat, xField_toNat, yField_toNat, lowField_toNat]
    at hrsv hrole hx hy ⊢
  omega

/-- The low 28 bits of a word by the fields of CH_CMD. -/
theorem lowField_eq_of_mid_opcode {w w' : Word} (hmid : midField w = midField w')
    (hopcode : opcodeField w = opcodeField w') : lowField w = lowField w' := by
  simp only [← BitVec.toNat_inj, midField_toNat, opcodeField_toNat, lowField_toNat] at hmid hopcode ⊢
  omega

/-! ### A decoded word is the encoder's word -/

section Words

variable {w : Word} {op : BitVec 4}

theorem eq_plainWord (hop : (opField w).toNat = op.toNat) (hlow : lowField w = 0) : w = plainWord op :=
  word_eq_of_opField_lowField ((BitVec.eq_of_toNat_eq hop).trans (opField_plainWord op).symm)
    (hlow.trans (lowField_plainWord op).symm)

theorem eq_requestWord (hop : (opField w).toNat = op.toNat) (hrsv : rsvField w = 0) :
    w = requestWord op (roleField w) (xField w) (yField w) :=
  word_eq_of_opField_lowField ((BitVec.eq_of_toNat_eq hop).trans (opField_requestWord _ _ _ _).symm)
    (lowField_eq_of_fields (hrsv.trans (rsvField_requestWord _ _ _ _).symm) (roleField_requestWord _ _ _ _).symm
      (xField_requestWord _ _ _ _).symm (yField_requestWord _ _ _ _).symm)

theorem eq_chCmdWord (hop : (opField w).toNat = 0xC) (hmid : midField w = 0) :
    w = (0xC : BitVec 4) ++ (0 : BitVec 20) ++ opcodeField w :=
  word_eq_of_opField_lowField ((BitVec.eq_of_toNat_eq (y := 0xC) hop).trans (opField_chCmd _).symm)
    (lowField_eq_of_mid_opcode (hmid.trans (midField_chCmd _).symm) (opcodeField_chCmd _).symm)

end Words

/-- Only a role's own code names it (R96). -/
theorem eq_code_of_roleOfCode {code : BitVec 2} {r : Role} (h : roleOfCode code = some r) : code = r.code := by
  unfold roleOfCode at h
  split at h <;> cases h
  all_goals exact BitVec.eq_of_toNat_eq ‹_›

/-! ## What each decoder accepts (R95, R99) -/

/-- A check that passes leaves the rest of a decoder to accept. -/
theorem check_eq_ok_iff {P : Prop} [Decidable P] {e : DecodeError} {x : Except DecodeError Instr} {i : Instr} :
    (if P then .error e else x) = .ok i ↔ ¬P ∧ x = .ok i := by
  by_cases h : P <;> simp [h]

section Decoders

variable {w : Word} {bl : List Block} {i j : Instr}

theorem decodePlain_eq_ok_iff : decodePlain w bl i = .ok j ↔ lowField w = 0 ∧ bl = [] ∧ j = i := by
  unfold decodePlain
  rw [check_eq_ok_iff, not_not]
  refine and_congr_right fun _ => ⟨fun h => ?_, ?_⟩
  · split at h <;> cases h
    exact ⟨rfl, rfl⟩
  · rintro ⟨rfl, rfl⟩; rfl

theorem decodeDisplay_eq_ok_iff :
    decodeDisplay w bl = .ok j ↔ lowField w = 0 ∧ ∃ b h, bl = [.b b, .h h] ∧ j = .display b h := by
  unfold decodeDisplay
  rw [check_eq_ok_iff, not_not]
  refine and_congr_right fun _ => ⟨fun h => ?_, ?_⟩
  · split at h <;> cases h
    exact ⟨_, _, rfl, rfl⟩
  · rintro ⟨_, _, rfl, rfl⟩; rfl

theorem decodeFbSet_eq_ok_iff : decodeFbSet w bl = .ok j ↔
    rsvField w = 0 ∧ ∃ r, roleField w = r.code ∧ bl = [] ∧ j = .fbSet (xField w) (yField w) r := by
  unfold decodeFbSet
  rw [check_eq_ok_iff, not_not]
  refine and_congr_right fun _ => ⟨fun h => ?_, ?_⟩
  · split at h
    · cases h
    · next r hrole =>
      split at h <;> cases h
      exact ⟨r, eq_code_of_roleOfCode hrole, rfl, rfl⟩
  · rintro ⟨r, hrole, rfl, rfl⟩
    rw [hrole, roleOfCode_code]

theorem decodeFbGet_eq_ok_iff : decodeFbGet w bl = .ok j ↔
    (rsvField w = 0 ∧ roleField w = 0) ∧ bl = [] ∧ j = .fbGet (xField w) (yField w) := by
  unfold decodeFbGet
  rw [check_eq_ok_iff, not_or, not_not, not_not]
  refine and_congr_right fun _ => ⟨fun h => ?_, ?_⟩
  · split at h <;> cases h
    exact ⟨rfl, rfl⟩
  · rintro ⟨rfl, rfl⟩; rfl

theorem decodeFbDraw_eq_ok_iff :
    decodeFbDraw w bl = .ok j ↔ lowField w = 0 ∧ ∃ s, bl = [.src s] ∧ s.wf = true ∧ j = .fbDraw s := by
  unfold decodeFbDraw
  rw [check_eq_ok_iff, not_not]
  refine and_congr_right fun _ => ⟨fun h => ?_, ?_⟩
  · split at h
    · split at h <;> cases h
      exact ⟨_, rfl, ‹_›, rfl⟩
    · cases h
  · rintro ⟨s, rfl, hwf, rfl⟩; exact if_pos hwf

theorem decodeChCmd_eq_ok_iff :
    decodeChCmd w bl = .ok j ↔ midField w = 0 ∧ ∃ s, bl = [.payload s] ∧ j = .chCmd (opcodeField w) s := by
  unfold decodeChCmd
  rw [check_eq_ok_iff, not_not]
  refine and_congr_right fun _ => ⟨fun h => ?_, ?_⟩
  · split at h <;> cases h
    exact ⟨_, rfl, rfl⟩
  · rintro ⟨_, rfl, rfl⟩; rfl

theorem decodeChData_eq_ok_iff :
    decodeChData w bl = .ok j ↔ lowField w = 0 ∧ ∃ s, bl = [.payload s] ∧ j = .chData s := by
  unfold decodeChData
  rw [check_eq_ok_iff, not_not]
  refine and_congr_right fun _ => ⟨fun h => ?_, ?_⟩
  · split at h <;> cases h
    exact ⟨_, rfl, rfl⟩
  · rintro ⟨_, rfl, rfl⟩; rfl

end Decoders

/-! ## Decode and encode agree (O2) -/

/-- The encoder's code of an instruction that a request decodes to. -/
theorem encode_of_decodeRequest {w : Word} {bl : List Block} {i : Instr} (h : decodeRequest w bl = .ok i) :
    encode i = .request w bl ∧ i.wf = true := by
  unfold decodeRequest at h
  split at h
  case h_1 hop | h_3 hop | h_4 hop | h_5 hop | h_6 hop | h_9 hop =>
    obtain ⟨hlow, rfl, rfl⟩ := decodePlain_eq_ok_iff.mp h
    exact ⟨congrArg (Code.request · []) (eq_plainWord hop hlow).symm, rfl⟩
  case h_2 hop =>
    obtain ⟨hlow, _, _, rfl, rfl⟩ := decodeDisplay_eq_ok_iff.mp h
    exact ⟨congrArg (Code.request · _) (eq_plainWord hop hlow).symm, rfl⟩
  case h_7 hop =>
    obtain ⟨hrsv, r, hrole, rfl, rfl⟩ := decodeFbSet_eq_ok_iff.mp h
    exact ⟨congrArg (Code.request · []) (hrole ▸ eq_requestWord hop hrsv).symm, rfl⟩
  case h_8 hop =>
    obtain ⟨⟨hrsv, hrole⟩, rfl, rfl⟩ := decodeFbGet_eq_ok_iff.mp h
    exact ⟨congrArg (Code.request · []) (hrole ▸ eq_requestWord hop hrsv).symm, rfl⟩
  case h_10 hop =>
    obtain ⟨hlow, _, rfl, hwf, rfl⟩ := decodeFbDraw_eq_ok_iff.mp h
    exact ⟨congrArg (Code.request · _) (eq_plainWord hop hlow).symm, hwf⟩
  case h_11 hop =>
    obtain ⟨hmid, _, rfl, rfl⟩ := decodeChCmd_eq_ok_iff.mp h
    exact ⟨congrArg (Code.request · _) (eq_chCmdWord hop hmid).symm, rfl⟩
  case h_12 hop =>
    obtain ⟨hlow, _, rfl, rfl⟩ := decodeChData_eq_ok_iff.mp h
    exact ⟨congrArg (Code.request · _) (eq_plainWord hop hlow).symm, rfl⟩
  case h_13 => cases h

/-- A wire command's code, by its opcode and payload (R101). -/
theorem encode_of_wireCommand {i : Instr} {op : Byte} {src : Payload} (h : wireCommand i = some (op, src)) :
    encode i = .wire op src := by
  cases i with
  | init | display _ _ | displayFb | clear | sleep | status | fbSet _ _ _ | fbGet _ _ | fbClear | fbDraw _ | chCmd _ _
  | chData _ => cases h
  | wSwreset | wAutowriteHl _ | wAutowriteBw _ | wSoftstart _ | wGate _ | wDataEntry _ | wRamxWindow _ | wRamyWindow _
  | wBorder _ | wTempSensor _ | wUpdateCtrl2 _ | wMasterAct | wWriteBw _ | wWriteHl _ | wRamxCounter _ | wRamyCounter _
  | wDeepSleep => cases h; rfl

section Wire

variable {src : Payload} {i : Instr}

theorem decodeFixed_eq_ok {payload : List Byte} {j : Instr} (h : decodeFixed src payload j = .ok i) :
    src = .bytes payload ∧ i = j := by
  unfold decodeFixed at h
  split at h <;> cases h
  exact ⟨‹_›, rfl⟩

theorem decodeBytes_eq_ok {mk : List Byte → Instr} (h : decodeBytes src mk = .ok i) : ∃ s, src = .bytes s ∧ i = mk s := by
  unfold decodeBytes at h
  split at h <;> cases h
  exact ⟨_, rfl, rfl⟩

/-- A plane reference is accepted only to the named plane. -/
theorem decodePlaneOf_eq_ok {p : Plane} {mk : Payload → Instr} (h : decodePlaneOf src p mk = .ok i) :
    i = mk src ∧ ∀ q, src = .plane q → q = p := by
  unfold decodePlaneOf at h
  split at h
  · cases h; exact ⟨rfl, nofun⟩
  · split at h <;> cases h
    exact ⟨rfl, fun _ h => by cases h; assumption⟩

end Wire

/-- A wire code that decodes is that of its instruction, whose payload its rule admits. -/
theorem wireCommand_of_decodeWire {op : Byte} {src : Payload} {i : Instr} (h : decodeWire op src = .ok i) :
    wireCommand i = some (op, src) ∧ i.wf = true := by
  have opcode {n : Nat} (hop : op.toNat = n) (hn : n < 2 ^ 8) : op = BitVec.ofNat 8 n :=
    BitVec.eq_of_toNat_eq (by rw [hop, BitVec.toNat_ofNat, Nat.mod_eq_of_lt hn])
  unfold decodeWire at h
  split at h
  case h_18 => cases h
  case h_1 hop | h_12 hop | h_17 hop =>
    obtain ⟨rfl, rfl⟩ := decodeFixed_eq_ok h
    exact ⟨congrArg (fun op => some (op, _)) (opcode hop (by decide)).symm, rfl⟩
  case h_13 hop | h_14 hop =>
    obtain ⟨rfl, hplane⟩ := decodePlaneOf_eq_ok h
    exact ⟨congrArg (fun op => some (op, _)) (opcode hop (by decide)).symm,
      decide_eq_true fun hsrc => Plane.noConfusion (hplane _ hsrc)⟩
  all_goals
    obtain ⟨_, rfl, rfl⟩ := decodeBytes_eq_ok h
    exact ⟨congrArg (fun op => some (op, _)) (opcode ‹_› (by decide)).symm, rfl⟩

/-- The decoder gives back every well-formed instruction the encoder wrote. -/
theorem decode_encode (i : Instr) : RoundTrip.Statement i := by
  cases i with
  | init => exact RoundTrip.init
  | display b h => exact RoundTrip.display b h
  | displayFb => exact RoundTrip.displayFb
  | clear => exact RoundTrip.clear
  | sleep => exact RoundTrip.sleep
  | status => exact RoundTrip.status
  | fbSet x y role => exact RoundTrip.fbSet x y role
  | fbGet x y => exact RoundTrip.fbGet x y
  | fbClear => exact RoundTrip.fbClear
  | fbDraw src => exact RoundTrip.fbDraw src
  | chCmd op payload => exact RoundTrip.chCmd op payload
  | chData payload => exact RoundTrip.chData payload
  | wSwreset => exact RoundTrip.wSwreset
  | wAutowriteHl p => exact RoundTrip.wAutowriteHl p
  | wAutowriteBw p => exact RoundTrip.wAutowriteBw p
  | wSoftstart p => exact RoundTrip.wSoftstart p
  | wGate p => exact RoundTrip.wGate p
  | wDataEntry p => exact RoundTrip.wDataEntry p
  | wRamxWindow p => exact RoundTrip.wRamxWindow p
  | wRamyWindow p => exact RoundTrip.wRamyWindow p
  | wBorder p => exact RoundTrip.wBorder p
  | wTempSensor p => exact RoundTrip.wTempSensor p
  | wUpdateCtrl2 p => exact RoundTrip.wUpdateCtrl2 p
  | wMasterAct => exact RoundTrip.wMasterAct
  | wWriteBw src => exact RoundTrip.wWriteBw src
  | wWriteHl src => exact RoundTrip.wWriteHl src
  | wRamxCounter p => exact RoundTrip.wRamxCounter p
  | wRamyCounter p => exact RoundTrip.wRamyCounter p
  | wDeepSleep => exact RoundTrip.wDeepSleep

/-- An accepted code is the code of its instruction, which is well-formed. -/
theorem encode_of_decode {c : Code} {i : Instr} (h : decode c = .ok i) : encode i = c ∧ i.wf = true := by
  cases c with
  | request w bl => exact encode_of_decodeRequest h
  | wire op src => exact (wireCommand_of_decodeWire h).imp_left encode_of_wireCommand

/-- Settles O2: each instruction's round trip, and each decoder's accepted codes. -/
theorem decodeAndEncodeAgree : Obligations.DecodeAndEncodeAgree :=
  ⟨decode_encode, fun _ _ => encode_of_decode⟩

/-! ## Fields are the word's bits (O4) -/

/-- Settles O4: an accepted word is the one its instruction is encoded as, whose fields are known. -/
theorem fieldsAreTheWordsBits : Obligations.FieldsAreTheWordsBits := by
  intro w bl
  refine ⟨fun x y role h => ?_, fun x y h => ?_, fun op s h => ?_⟩
  · cases (encode_of_decode h).1
    refine ⟨?_, ?_, ?_⟩
    · rw [← xField_toNat, xField_requestWord]
    · rw [← yField_toNat, yField_requestWord]
    · exact (congrArg BitVec.toNat (roleField_requestWord _ _ _ _)).symm.trans (roleField_toNat _)
  · cases (encode_of_decode h).1
    exact ⟨by rw [← xField_toNat, xField_requestWord], by rw [← yField_toNat, yField_requestWord]⟩
  · cases (encode_of_decode h).1
    exact ⟨by rw [← opcodeField_toNat, opcodeField_chCmd], rfl⟩

/-! ## Illegal requests (O3) -/

theorem error_iff_not_ok {ε α : Type} {x : Except ε α} : (∃ e, x = .error e) ↔ ¬∃ a, x = .ok a := by
  cases x <;> simp

/-! ### Blocks by their kinds (R98) -/

section Kinds

variable {x : Block} {bl : List Block}

theorem blockKind_eq_b : blockKind x = .b ↔ ∃ s, x = .b s := by cases x <;> simp [blockKind]
theorem blockKind_eq_h : blockKind x = .h ↔ ∃ s, x = .h s := by cases x <;> simp [blockKind]
theorem blockKind_eq_payload : blockKind x = .payload ↔ ∃ s, x = .payload s := by cases x <;> simp [blockKind]
theorem blockKind_eq_src : blockKind x = .src ↔ ∃ s, x = .src s := by cases x <;> simp [blockKind]

theorem kinds_eq_b_h : bl.map blockKind = [.b, .h] ↔ ∃ b h, bl = [.b b, .h h] := by
  simp only [List.map_eq_cons_iff, List.map_eq_nil_iff, blockKind_eq_b, blockKind_eq_h]
  constructor
  · rintro ⟨_, _, rfl, ⟨b, rfl⟩, _, _, rfl, ⟨h, rfl⟩, rfl⟩; exact ⟨b, h, rfl⟩
  · rintro ⟨b, h, rfl⟩; exact ⟨_, _, rfl, ⟨b, rfl⟩, _, _, rfl, ⟨h, rfl⟩, rfl⟩

theorem kinds_eq_payload : bl.map blockKind = [.payload] ↔ ∃ s, bl = [.payload s] := by
  simp only [List.map_eq_singleton_iff, blockKind_eq_payload]
  constructor
  · rintro ⟨_, rfl, s, rfl⟩; exact ⟨s, rfl⟩
  · rintro ⟨s, rfl⟩; exact ⟨_, rfl, s, rfl⟩

theorem kinds_eq_src : bl.map blockKind = [.src] ↔ ∃ s, bl = [.src s] := by
  simp only [List.map_eq_singleton_iff, blockKind_eq_src]
  constructor
  · rintro ⟨_, rfl, s, rfl⟩; exact ⟨s, rfl⟩
  · rintro ⟨s, rfl⟩; exact ⟨_, rfl, s, rfl⟩

/-- Only a list with the kind `SRC` has a source descriptor. -/
theorem src_mem_kinds {s : Source} (h : Block.src s ∈ bl) : BlockKind.src ∈ bl.map blockKind :=
  List.mem_map_of_mem (f := blockKind) h

end Kinds

/-- Every source descriptor of the request keeps R98. -/
def SourcesOk (bl : List Block) : Prop := ∀ s, Block.src s ∈ bl → s.wf = true

theorem sourcesOk_of_kinds {bl : List Block} (h : BlockKind.src ∉ bl.map blockKind) : SourcesOk bl :=
  fun _ hs => absurd (src_mem_kinds hs) h

theorem kinds_and_sourcesOk {bl : List Block} {kinds : List BlockKind} (h : BlockKind.src ∉ kinds) :
    bl.map blockKind = kinds ∧ SourcesOk bl ↔ bl.map blockKind = kinds :=
  and_iff_left_of_imp fun hk => sourcesOk_of_kinds (hk ▸ h)

/-! ### What each decoder accepts, and no operand named -/

section Accepts

variable {w : Word} {bl : List Block}

theorem lowField_eq_zero : lowField w = 0 ↔ w.toNat % 2 ^ 28 = 0 := by
  rw [← BitVec.toNat_inj, lowField_toNat]; rfl

theorem midField_eq_zero : midField w = 0 ↔ w.toNat / 2 ^ 8 % 2 ^ 20 = 0 := by
  rw [← BitVec.toNat_inj, midField_toNat]; rfl

theorem rsvField_eq_zero : rsvField w = 0 ↔ w.toNat / 2 ^ 26 % 2 ^ 2 = 0 := by
  rw [← BitVec.toNat_inj, rsvField_toNat]; rfl

/-- The bits FB_GET requires to be 0 are both its fields RSV and ROLE. -/
theorem rsvField_roleField_eq_zero : rsvField w = 0 ∧ roleField w = 0 ↔ w.toNat / 2 ^ 24 % 2 ^ 4 = 0 := by
  have hrole : roleField w = 0 ↔ w.toNat / 2 ^ 24 % 2 ^ 2 = 0 := by
    rw [← BitVec.toNat_inj, roleField_toNat]; rfl
  rw [rsvField_eq_zero, hrole]
  omega

/-- Every role field but the reserved 3 is a role's code (R96). -/
theorem exists_role_code : (∃ r : Role, roleField w = r.code) ↔ w.toNat / 2 ^ 24 % 4 ≠ 3 := by
  have hnamed : ∀ code : BitVec 2, code.toNat ≠ 3 → (roleOfCode code).isSome = true := by decide
  have hnum : w.toNat / 2 ^ 24 % 4 = (roleField w).toNat := (roleField_toNat w).symm
  rw [hnum]
  refine ⟨fun ⟨r, hr⟩ => ?_, fun h => ?_⟩
  · rw [hr]; cases r <;> decide
  · obtain ⟨r, hr⟩ := Option.isSome_iff_exists.mp (hnamed _ h)
    exact ⟨r, eq_code_of_roleOfCode hr⟩

theorem decodePlain_accepts {i : Instr} :
    (∃ j, decodePlain w bl i = .ok j) ↔ w.toNat % 2 ^ 28 = 0 ∧ bl.map blockKind = [] ∧ SourcesOk bl := by
  rw [kinds_and_sourcesOk List.not_mem_nil]
  simp only [decodePlain_eq_ok_iff, lowField_eq_zero, List.map_eq_nil_iff,
    exists_and_left, exists_eq, and_true]

theorem decodeDisplay_accepts :
    (∃ j, decodeDisplay w bl = .ok j) ↔ w.toNat % 2 ^ 28 = 0 ∧ bl.map blockKind = [.b, .h] ∧ SourcesOk bl := by
  rw [kinds_and_sourcesOk (by decide), kinds_eq_b_h]
  simp only [decodeDisplay_eq_ok_iff, lowField_eq_zero]
  exact ⟨fun ⟨_, hlow, b, h, hbl, _⟩ => ⟨hlow, b, h, hbl⟩, fun ⟨hlow, b, h, hbl⟩ => ⟨_, hlow, b, h, hbl, rfl⟩⟩

theorem decodeFbSet_accepts : (∃ j, decodeFbSet w bl = .ok j) ↔
    w.toNat / 2 ^ 26 % 2 ^ 2 = 0 ∧ w.toNat / 2 ^ 24 % 4 ≠ 3 ∧ bl.map blockKind = [] ∧ SourcesOk bl := by
  rw [kinds_and_sourcesOk List.not_mem_nil, ← exists_role_code]
  simp only [decodeFbSet_eq_ok_iff, rsvField_eq_zero, List.map_eq_nil_iff]
  exact ⟨fun ⟨_, hrsv, r, hr, hbl, _⟩ => ⟨hrsv, ⟨r, hr⟩, hbl⟩, fun ⟨hrsv, ⟨r, hr⟩, hbl⟩ => ⟨_, hrsv, r, hr, hbl, rfl⟩⟩

theorem decodeFbGet_accepts :
    (∃ j, decodeFbGet w bl = .ok j) ↔ w.toNat / 2 ^ 24 % 2 ^ 4 = 0 ∧ bl.map blockKind = [] ∧ SourcesOk bl := by
  rw [kinds_and_sourcesOk List.not_mem_nil]
  simp only [decodeFbGet_eq_ok_iff, rsvField_roleField_eq_zero, List.map_eq_nil_iff,
    exists_and_left, exists_eq, and_true]

theorem decodeFbDraw_accepts :
    (∃ j, decodeFbDraw w bl = .ok j) ↔ w.toNat % 2 ^ 28 = 0 ∧ bl.map blockKind = [.src] ∧ SourcesOk bl := by
  simp only [decodeFbDraw_eq_ok_iff, lowField_eq_zero, kinds_eq_src, SourcesOk]
  constructor
  · rintro ⟨_, hlow, s, rfl, hwf, -⟩
    exact ⟨hlow, ⟨s, rfl⟩, fun _ hmem => by cases List.mem_singleton.mp hmem; exact hwf⟩
  · rintro ⟨hlow, ⟨s, rfl⟩, hwf⟩
    exact ⟨_, hlow, s, rfl, hwf s (List.mem_singleton_self _), rfl⟩

theorem decodeChCmd_accepts :
    (∃ j, decodeChCmd w bl = .ok j) ↔ w.toNat / 2 ^ 8 % 2 ^ 20 = 0 ∧ bl.map blockKind = [.payload] ∧ SourcesOk bl := by
  rw [kinds_and_sourcesOk (by decide), kinds_eq_payload]
  simp only [decodeChCmd_eq_ok_iff, midField_eq_zero]
  exact ⟨fun ⟨_, hzero, s, hbl, _⟩ => ⟨hzero, s, hbl⟩, fun ⟨hzero, s, hbl⟩ => ⟨_, hzero, s, hbl, rfl⟩⟩

theorem decodeChData_accepts :
    (∃ j, decodeChData w bl = .ok j) ↔ w.toNat % 2 ^ 28 = 0 ∧ bl.map blockKind = [.payload] ∧ SourcesOk bl := by
  rw [kinds_and_sourcesOk (by decide), kinds_eq_payload]
  simp only [decodeChData_eq_ok_iff, lowField_eq_zero]
  exact ⟨fun ⟨_, hzero, s, hbl, _⟩ => ⟨hzero, s, hbl⟩, fun ⟨hzero, s, hbl⟩ => ⟨_, hzero, s, hbl, rfl⟩⟩

end Accepts

/-- One of R95's five clauses holds. -/
def Illegal (w : Word) (bl : List Block) : Prop :=
  (opNumber w = 0x0 ∨ opNumber w = 0x7 ∨ opNumber w = 0xE ∨ opNumber w = 0xF) ∨ requiredZero w ≠ 0 ∨
  (opNumber w = 0x8 ∧ w.toNat / 2 ^ 24 % 4 = 3) ∨ bl.map blockKind ≠ requiredBlocks (opNumber w) ∨ ¬SourcesOk bl

/-- A request is accepted exactly when no clause holds. -/
theorem decodeRequest_accepts (w : Word) (bl : List Block) : (∃ i, decodeRequest w bl = .ok i) ↔ ¬Illegal w bl := by
  have hlt : opNumber w < 16 := by have := w.isLt; rw [opNumber]; omega
  unfold Illegal requiredZero requiredBlocks decodeRequest
  rw [opField_toNat]
  match opNumber w, hlt with
  | 0x0, _ | 0x7, _ | 0xE, _ | 0xF, _ => simp
  | 0x1, _ | 0x3, _ | 0x4, _ | 0x5, _ | 0x6, _ | 0xA, _ => simpa using decodePlain_accepts
  | 0x2, _ => simpa using decodeDisplay_accepts
  | 0x8, _ => simpa using decodeFbSet_accepts
  | 0x9, _ => simpa using decodeFbGet_accepts
  | 0xB, _ => simpa using decodeFbDraw_accepts
  | 0xC, _ => simpa using decodeChCmd_accepts
  | 0xD, _ => simpa using decodeChData_accepts
  | n + 16, h => omega

/-- A source descriptor that breaks R98, spelled out. -/
theorem source_not_wf (s : Source) : ¬s.wf = true ↔ s.x1 < s.x0 ∨ s.y1 < s.y0 ∨
    (s.pal ≠ [] ∧ (s.idx.length ≠ (s.x1 - s.x0) * (s.y1 - s.y0) ∨ s.rgb ≠ [])) ∨
    (s.pal = [] ∧ (s.rgb.length ≠ (s.x1 - s.x0) * (s.y1 - s.y0) ∨ s.idx ≠ [])) := by
  have hrect : ¬s.rectOk = true ↔ s.x1 < s.x0 ∨ s.y1 < s.y0 := by
    simp only [Source.rectOk, Bool.and_eq_true, decide_eq_true_eq, not_and_or, not_le]
  rw [Source.wf, Bool.and_eq_true, not_and_or, hrect, or_assoc, ← Source.area]
  refine or_congr_right (or_congr_right ?_)
  by_cases hpal : s.pal = []
  · simp [Source.pixOk, hpal, Decidable.imp_iff_not_or]
  · simp [Source.pixOk, hpal, Decidable.imp_iff_not_or]

/-- Settles O3: a request is refused exactly when it is not accepted, and accepted exactly when no clause holds. -/
theorem illegalExactlyWhen : Obligations.IllegalExactlyWhen := by
  intro w bl
  have haccepts : (∃ i, decode (.request w bl) = .ok i) ↔ ¬Illegal w bl := decodeRequest_accepts w bl
  simp only [error_iff_not_ok, haccepts, not_not, Illegal, SourcesOk, not_forall, source_not_wf, exists_prop]

/-! ## The chunks of a payload (40_channel.md R121) -/

/-- Adjoining slices of a payload. -/
theorem payloadSlice_append (f : FrameBuf) (src : Payload) {lo mid hi : Nat} (hlo : lo ≤ mid) (hhi : mid ≤ hi) :
    payloadSlice f src lo mid ++ payloadSlice f src mid hi = payloadSlice f src lo hi := by
  obtain ⟨a, rfl⟩ := Nat.exists_eq_add_of_le hlo
  obtain ⟨b, rfl⟩ := Nat.exists_eq_add_of_le hhi
  have hwidth : lo + a + b - lo = a + b := by omega
  cases src with
  | bytes s =>
    simp only [payloadSlice, Nat.add_sub_cancel_left, hwidth]
    rw [List.take_add, List.drop_drop]
  | plane p =>
    simp only [payloadSlice, Nat.add_sub_cancel_left, hwidth]
    rw [List.range_add, List.map_append, List.map_map]
    simp only [Function.comp_def, Nat.add_assoc]

/-- The first `m` chunks are the payload's first `m * XFER_LIMIT` bytes. -/
theorem flatMap_payloadChunk (c : Cfg) (f : FrameBuf) (src : Payload) (m : Nat) :
    (List.range m).flatMap (payloadChunk c f src) = payloadSlice f src 0 (min (m * c.xferLimit) (payloadLen c src)) := by
  induction m with
  | zero => cases src <;> simp [payloadSlice]
  | succ m ih =>
    rw [List.range_succ, List.flatMap_append, ih, List.flatMap_singleton, payloadChunk]
    rcases Nat.le_total (m * c.xferLimit) (payloadLen c src) with h | h
    · rw [Nat.min_eq_left h]
      exact payloadSlice_append f src (Nat.zero_le _) (le_min (Nat.mul_le_mul_right _ (by omega)) h)
    · have h' : payloadLen c src ≤ (m + 1) * c.xferLimit := h.trans (Nat.mul_le_mul_right _ (by omega))
      rw [Nat.min_eq_right h, Nat.min_eq_right h']
      cases src <;> simp [payloadSlice, Nat.sub_eq_zero_of_le h]

/-- The chunks cover the payload, each byte once and in ascending order. -/
theorem flatMap_payloadChunk_all (c : Cfg) (f : FrameBuf) (src : Payload) (hlimit : 1 ≤ c.xferLimit) :
    (List.range (nchunks c (payloadLen c src))).flatMap (payloadChunk c f src) = payloadAll c f src := by
  have hcover : payloadLen c src ≤ nchunks c (payloadLen c src) * c.xferLimit := by
    have hdiv := Nat.div_add_mod (payloadLen c src + c.xferLimit - 1) c.xferLimit
    have hmod := Nat.mod_lt (payloadLen c src + c.xferLimit - 1) hlimit
    rw [Nat.mul_comm] at hdiv
    rw [nchunks, ceilDiv]
    omega
  rw [flatMap_payloadChunk, Nat.min_eq_right hcover, payloadAll]

/-! ## The bytes of a wire command (O5) -/

/-- Transfers that accept every byte put their bytes on the bus in order, all under the same level of DC. -/
theorem busBytes_xfers (dc : Level) (p : Nat) (ks : List Nat) (bytes : Nat → List Byte) (es : List Event) :
    busBytes dc (ks.map (fun k => .xfer p (bytes k) (bytes k).length true) ++ es) =
      (ks.flatMap bytes).map (fun b => (dc, b)) ++ busBytes dc es := by
  induction ks with
  | nil => rfl
  | cons k ks ih =>
    simp only [List.map_cons, List.cons_append, busBytes, ih, List.take_length, List.flatMap_cons, List.map_append,
      List.append_assoc]

/-- A SEND_COMMAND in which nothing fails puts the opcode on the bus under DC 0 and the payload under DC 1. -/
theorem busBytes_commandEvents {c : Cfg} (hlimit : 1 ≤ c.xferLimit) (f : FrameBuf) (p : Nat) (op : Byte) (src : Payload)
    (dc : Level) : busBytes dc (commandEvents c f p op src) = wireFrame op (payloadAll c f src) := by
  have hchunks : busBytes true (chunkEvents c f p src ++ [.pin .cs true, .lock p .rel]) =
      (payloadAll c f src).map fun b => (true, b) := by
    rw [chunkEvents, busBytes_xfers, flatMap_payloadChunk_all c f src hlimit]
    exact List.append_nil _
  rw [commandEvents, List.append_assoc]
  exact congrArg ((false, op) :: ·) hchunks

/-- A stream with no payload byte in front: the payload ends where the stream does, or at a byte under DC 0 (R100). -/
def AtBoundary (rest : List (Level × Byte)) : Prop := rest = [] ∨ ∃ b more, rest = (false, b) :: more

theorem splitPayload_payload {rest : List (Level × Byte)} (h : AtBoundary rest) (payload : List Byte) :
    splitPayload (payload.map (fun b => (true, b)) ++ rest) = (payload, rest) := by
  induction payload with
  | nil => rcases h with rfl | ⟨b, more, rfl⟩ <;> rfl
  | cons b payload ih => rw [List.map_cons, List.cons_append, splitPayload, ih]

/-- Settles O5: the chunks are the payload's bytes in order, and DC 0 marks only an opcode. -/
theorem commandBytesAreWireFrame : Obligations.CommandBytesAreWireFrame := by
  refine ⟨fun c f p op src dc hlegal => busBytes_commandEvents (xferLimit_pos hlegal) f p op src dc,
    fun op payload rest hrest => ?_⟩
  rw [wireFrame, List.cons_append, parseFrame, splitPayload_payload hrest]

/-! ## What a failed transfer leaves out (O30) -/

/-- The number of lines a transfer leaves out when it fails; none for a line that is no transfer. -/
def transferSkip : Micro → Option Nat
  | .xferOp _ skip | .xferChunk _ _ skip => some skip
  | _ => none

/-- The lines a failed transfer leaves out: after an opcode the drive of DC and the payload, after a chunk the later chunks of
the same payload (40_channel.md R123, R124). -/
inductive LeftOut (c : Cfg) : Micro → List Micro → Prop
  | op (op : Byte) (src : Payload) :
      LeftOut c (.xferOp op (1 + nchunks c (payloadLen c src))) (.pin .dc true :: dataBody c src)
  | chunk (src : Payload) (k : Nat) (h : k < nchunks c (payloadLen c src)) :
      LeftOut c (.xferChunk src k (nchunks c (payloadLen c src) - 1 - k)) ((dataBody c src).drop (k + 1))

/-- The lines after the transfer `m` are those it leaves out, then the end of its logical command. -/
def EndsCommand (c : Cfg) (m : Micro) (rest : List Micro) : Prop :=
  ∃ left what, LeftOut c m left ∧ left ++ [.pin .cs true, .releaseCmd, .logXfer what] <+: rest

/-- Every transfer of the list stands in a logical command that ends in the list. -/
def TransfersEnd (c : Cfg) (l : List Micro) : Prop :=
  ∀ k m, l[k]? = some m → transferSkip m ≠ none → EndsCommand c m (l.drop (k + 1))

theorem transfersEnd_of_no_transfer {c : Cfg} {l : List Micro} (h : ∀ m ∈ l, transferSkip m = none) :
    TransfersEnd c l := fun _ m hm hx => absurd (h m (List.mem_of_getElem? hm)) hx

theorem TransfersEnd.cons {c : Cfg} {l : List Micro} {m : Micro} (h : TransfersEnd c l)
    (hm : transferSkip m ≠ none → EndsCommand c m l) : TransfersEnd c (m :: l) := by
  intro k m' hk hx
  cases k with
  | zero => cases hk; exact hm hx
  | succ k => exact h k m' hk hx

/-- A line that is no transfer, before a list. -/
theorem TransfersEnd.cons_line {c : Cfg} {l : List Micro} (h : TransfersEnd c l) (m : Micro) (hm : transferSkip m = none) :
    TransfersEnd c (m :: l) := h.cons fun hx => absurd hm hx

theorem TransfersEnd.append {c : Cfg} {l l' : List Micro} (h : TransfersEnd c l) (h' : TransfersEnd c l') :
    TransfersEnd c (l ++ l') := by
  induction l with
  | nil => exact h'
  | cons m l ih =>
    refine (ih fun k m' hk => h (k + 1) m' hk).cons fun hx => ?_
    obtain ⟨left, what, hleft, hpre⟩ := h 0 m rfl hx
    exact ⟨left, what, hleft, hpre.trans (List.prefix_append l l')⟩

theorem transfersEnd_commandEnd (c : Cfg) (src : Payload) (what : LogWhat) : TransfersEnd c (commandEnd c src what) := by
  intro k m hm hx
  have hlen := dataBody_length c src
  rcases Nat.lt_or_ge k (dataBody c src).length with hk | hk
  · rw [commandEnd, List.getElem?_append_left hk, dataBody_getElem? c src (hlen ▸ hk)] at hm
    cases hm
    refine ⟨_, what, .chunk src k (hlen ▸ hk), ?_⟩
    rw [commandEnd, List.drop_append_of_le_length hk]
  · rw [commandEnd, List.getElem?_append_right hk] at hm
    have hmem := List.mem_of_getElem? hm
    simp only [List.mem_cons, List.not_mem_nil, or_false] at hmem
    rcases hmem with rfl | rfl | rfl <;> cases hx rfl

theorem transfersEnd_sendCommand (c : Cfg) (op : Byte) (src : Payload) : TransfersEnd c (sendCommand c op src) := by
  have hdc := (transfersEnd_commandEnd c src (.opcode op)).cons_line (.pin .dc true) rfl
  have hop := hdc.cons (m := .xferOp op (1 + nchunks c (payloadLen c src)))
    fun _ => ⟨_, .opcode op, .op op src, List.prefix_rfl⟩
  exact ((hop.cons_line (.pin .dc false) rfl).cons_line (.pin .cs false) rfl).cons_line .acquire rfl

theorem transfersEnd_sendData (c : Cfg) (src : Payload) : TransfersEnd c (sendData c src) :=
  (((transfersEnd_commandEnd c src .data).cons_line (.pin .dc true) rfl).cons_line (.pin .cs false) rfl).cons_line
    .acquire rfl

theorem Body.transfersEnd {c : Cfg} {l : List Micro} (h : Body c l) : TransfersEnd c l := by
  induction h with
  | command op src => exact transfersEnd_sendCommand c op src
  | data src => exact transfersEnd_sendData c src
  | pulse | wait | act | openWindow | closeWindow => exact transfersEnd_of_no_transfer (by decide)
  | append _ _ ih ih' => exact ih.append ih'

theorem transfersEnd_stepList (c : Cfg) (i : Instr) : TransfersEnd c (stepList c i) := by
  have ends {l : List Micro} (hl : TransfersEnd c l) (e : Micro) (he : transferSkip e = none) : TransfersEnd c (l ++ [e]) :=
    hl.append (transfersEnd_of_no_transfer (by simpa using he))
  cases stepShape c i with
  | none _ h => rw [h]; exact transfersEnd_of_no_transfer nofun
  | channel _ hl he h => rw [h]; exact ends hl.transfersEnd _ (by rcases he with rfl | rfl <;> rfl)
  | init _ hl h | sleep _ hl h => rw [h]; exact (ends hl.transfersEnd _ rfl).cons_line _ rfl
  | display _ _ _ hl hl' h =>
    rw [h]
    exact (hl.transfersEnd.cons_line _ rfl).append ((ends hl'.transfersEnd _ rfl).cons_line _ rfl)

/-- A transfer of an instruction, and the lines after it. -/
theorem transfer_endsCommand {c : Cfg} {i : Instr} {pc : Nat} {m : Micro} (hm : stepAt c i pc = some m)
    (hx : transferSkip m ≠ none) : ∃ rest, EndsCommand c m rest ∧ ∀ j, stepAt c i (pc + 1 + j) = rest[j]? := by
  by_cases hdraw : ∃ src, i = .fbDraw src
  · obtain ⟨src, rfl⟩ := hdraw
    rcases drawStepAt_cases hm with ⟨-, rfl⟩ | ⟨-, -, rfl⟩ | ⟨-, rfl⟩ <;> cases hx rfl
  · have hlist pc := stepAt_eq c i pc fun src h => hdraw ⟨src, h⟩
    rw [hlist] at hm
    exact ⟨_, transfersEnd_stepList c i pc m hm hx, fun j => by rw [hlist, List.getElem?_drop]⟩

theorem LeftOut.length {c : Cfg} {m : Micro} {left : List Micro} (h : LeftOut c m left) :
    transferSkip m = some left.length := by
  cases h with
  | op op src => simp [transferSkip, dataBody_length, Nat.add_comm]
  | chunk src k h => simp only [transferSkip, List.length_drop, dataBody_length]; congr 1; omega

/-- The running port's sequencer after a transfer. -/
theorem runMicro_transfer_seq {m : Micro} {s t : State} {skip : Nat} (h : runMicro m s = .next t)
    (hx : transferSkip m = some skip) (hcur : s.curOk) : ∃ n ok, t.seq =
      { s.seq with pc := s.seq.pc + (if ok then 1 else 1 + skip), sent := n, ok := ok } := by
  have hnext := runMicro_next m s t h
  cases m with
  | xferOp _ _ | xferChunk _ _ _ =>
    cases hx
    obtain ⟨_, _, _, -, -, -, rfl⟩ := hnext
    exact ⟨_, _, seq_of_ports (s := s) hcur rfl⟩
  | acquire | release | releaseCmd | pin _ _ | delay _ | sampleBusy | pollDelay | logXfer _ | entry _ | exit _ | startRefresh
  | openWindow | closeWindow | respondSent | ret | drawStart _ | drawPixel _ _ | drawEnd => cases hx

/-- A transfer answers a next state, one line on where it succeeds and past the lines it leaves out where it fails. -/
theorem exec_transfer {i : Instr} {s : State} {m : Micro} {skip : Nat} (hcur : s.curOk)
    (hm : stepAt s.cfg i s.seq.pc = some m) (hx : transferSkip m = some skip) :
    ∃ t, exec i s = .next t ∧ t.seq.op = s.seq.op ∧
      t.seq.pc = if t.seq.ok then s.seq.pc + 1 else s.seq.pc + 1 + skip := by
  have hexec := (exec_at_micro i s m hm).resolve_right fun h => by rw [h.1] at hx; cases hx
  have hown : ReleasesOwned m s := by cases m <;> trivial
  obtain ⟨t, ht⟩ := runMicro_answers m s hown
  obtain ⟨n, ok, hseq⟩ := runMicro_transfer_seq ht hx hcur
  refine ⟨t, hexec.trans ht, by rw [hseq], ?_⟩
  rw [hseq]
  cases ok
  · exact (Nat.add_assoc _ _ _).symm
  · rfl

/-- Where a transfer goes on: the next line, or the end of its own logical command. -/
def GoesOn (i : Instr) (s : State) (skip : Nat) : Prop :=
  (∃ t, exec i s = .next t ∧ t.seq.op = s.seq.op ∧
    t.seq.pc = if t.seq.ok then s.seq.pc + 1 else s.seq.pc + 1 + skip) ∧
  stepAt s.cfg i (s.seq.pc + 1 + skip) = some (.pin .cs true) ∧
  stepAt s.cfg i (s.seq.pc + 2 + skip) = some .releaseCmd ∧
  ∃ what, stepAt s.cfg i (s.seq.pc + 3 + skip) = some (.logXfer what)

/-- A transfer goes on, and the lines it leaves out when it fails are those of `LeftOut`. -/
theorem transfer_goesOn {i : Instr} {s : State} {m : Micro} {skip : Nat} (hcur : s.curOk)
    (hm : stepAt s.cfg i s.seq.pc = some m) (hx : transferSkip m = some skip) :
    GoesOn i s skip ∧ ∃ left, LeftOut s.cfg m left ∧
      ∀ j < skip, stepAt s.cfg i (s.seq.pc + 1 + j) = left[j]? := by
  obtain ⟨rest, ⟨left, what, hleft, tail, htail⟩, hrest⟩ := transfer_endsCommand hm (hx ▸ Option.some_ne_none skip)
  obtain rfl : left.length = skip := Option.some.inj (hleft.length.symm.trans hx)
  have hline {j : Nat} {m' : Micro} (h : (left ++ [.pin .cs true, .releaseCmd, .logXfer what])[j]? = some m') :
      stepAt s.cfg i (s.seq.pc + 1 + j) = some m' := by
    rw [hrest, ← htail, List.getElem?_append_left (List.getElem?_eq_some_iff.mp h).1, h]
  have hend {j : Nat} {m' : Micro} (h : [Micro.pin .cs true, .releaseCmd, .logXfer what][j]? = some m') :
      stepAt s.cfg i (s.seq.pc + 1 + (left.length + j)) = some m' :=
    hline (by rw [List.getElem?_append_right (by omega), Nat.add_sub_cancel_left, h])
  refine ⟨⟨exec_transfer hcur hm hx, hend (j := 0) rfl, ?_, what, ?_⟩, left, hleft, fun j hj => ?_⟩
  · rw [show s.seq.pc + 2 + left.length = s.seq.pc + 1 + (left.length + 1) by omega]; exact hend rfl
  · rw [show s.seq.pc + 3 + left.length = s.seq.pc + 1 + (left.length + 2) by omega]; exact hend rfl
  · rw [List.getElem?_eq_getElem hj]
    exact hline (by rw [List.getElem?_append_left hj, List.getElem?_eq_getElem hj])

/-- Settles O30: every transfer stands in a logical command, and its `skip` is the number of the lines it leaves out. -/
theorem failureSkipsOwnCommandOnly : Obligations.FailureSkipsOwnCommandOnly := by
  intro i s hcur
  dsimp only
  refine ⟨fun op skip hm => ?_, fun src k skip hm => ?_⟩
  · obtain ⟨hgo, _, hleft, hlines⟩ := transfer_goesOn hcur hm rfl
    cases hleft with
    | op _ src =>
      refine ⟨hgo, hlines 0 (by omega), src, rfl, fun k hk => ⟨nchunks s.cfg (payloadLen s.cfg src) - 1 - k, ?_⟩⟩
      have hline := hlines (1 + k) (by omega)
      rw [← Nat.add_assoc, Nat.add_comm 1 k, List.getElem?_cons_succ, dataBody_getElem? s.cfg src hk] at hline
      exact hline
  · obtain ⟨hgo, _, hleft, hlines⟩ := transfer_goesOn hcur hm rfl
    cases hleft with
    | chunk _ _ hk =>
      refine ⟨hgo, by omega, fun j hj => ⟨nchunks s.cfg (payloadLen s.cfg src) - 1 - (k + 1 + j), ?_⟩⟩
      rw [hlines j hj, List.getElem?_drop, dataBody_getElem? s.cfg src (by omega)]

/-! ## Runs line by line -/

/-- The instruction, alone, runs from one state to another. -/
def Runs (i : Instr) (s t : State) : Prop := ∃ k, execN i k s = .next t

theorem Runs.refl (i : Instr) (s : State) : Runs i s s := ⟨0, rfl⟩

theorem Runs.trans {i : Instr} {s t u : State} (h : Runs i s t) (h' : Runs i t u) : Runs i s u := by
  obtain ⟨j, hj⟩ := h
  obtain ⟨k, hk⟩ := h'
  exact ⟨j + k, execN_trans i j k s t u hj hk⟩

theorem Runs.of_exec {i : Instr} {s t : State} (h : exec i s = .next t) : Runs i s t := ⟨1, by rw [execN, h]; rfl⟩

/-- The lines `l` are the instruction's from `pc` on. -/
def LinesAt (c : Cfg) (i : Instr) (pc : Nat) (l : List Micro) : Prop := ∀ k m, l[k]? = some m → stepAt c i (pc + k) = some m

theorem LinesAt.left {c : Cfg} {i : Instr} {pc : Nat} {l l' : List Micro} (h : LinesAt c i pc (l ++ l')) :
    LinesAt c i pc l := by
  intro k m hk
  exact h k m (by rw [List.getElem?_append_left (List.getElem?_eq_some_iff.mp hk).1, hk])

theorem LinesAt.right {c : Cfg} {i : Instr} {pc : Nat} {l l' : List Micro} (h : LinesAt c i pc (l ++ l')) :
    LinesAt c i (pc + l.length) l' := by
  intro k m hk
  rw [Nat.add_assoc]
  exact h _ m (by rw [List.getElem?_append_right (by omega), Nat.add_sub_cancel_left, hk])

/-! ### What the lines of a logical command change -/

/-- How far a port's logical commands have come: the sequencer, the bus lock and the pins as they stand, the events emitted
and the number of fixed transfer outcomes used up. -/
structure Progress where
  seq : Machine.Seq
  owner : Option Nat
  pins : Pins
  events : List Event
  spent : Nat

namespace Progress

/-- No line taken yet. -/
def start (s : State) : Progress := ⟨s.seq, s.busOwner, s.pins, [], 0⟩

/-- `Acquire(BUS)` with the lock free. -/
def acquire (s : State) (p : Progress) : Progress :=
  { p with
    seq := { p.seq with pc := p.seq.pc + 1, sent := 0, ok := true }, owner := some s.cur,
    events := p.events ++ [.lock s.cur .acq] }

/-- `PinWrite(pin, lvl)`. -/
def drive (p : Progress) (pin : Pin) (lvl : Level) : Progress :=
  { p with
    seq := { p.seq with pc := p.seq.pc + 1 }, pins := p.pins.drive pin lvl, events := p.events ++ [.pin pin lvl] }

/-- `Release(BUS)` after a command that did not fail. -/
def release (s : State) (p : Progress) : Progress :=
  { p with seq := { p.seq with pc := p.seq.pc + 2 }, owner := none, events := p.events ++ [.lock s.cur .rel] }

/-- The opcode transfer, where it succeeds. -/
def sendOp (s : State) (op : Byte) (p : Progress) : Progress :=
  { p with
    seq := { p.seq with pc := p.seq.pc + 1, sent := 1, ok := true }, events := p.events ++ [.xfer s.cur [op] 1 true],
    spent := p.spent + 1 }

/-- The transfer of chunk `k`, where it succeeds. -/
def sendChunk (s : State) (src : Payload) (p : Progress) (k : Nat) : Progress :=
  let bytes := payloadChunk s.cfg s.fb src k
  { p with
    seq := { p.seq with pc := p.seq.pc + 1, sent := p.seq.sent + bytes.length, ok := true },
    events := p.events ++ [.xfer s.cur bytes bytes.length true], spent := p.spent + 1 }

/-- The first `m` chunks. -/
def sendChunks (s : State) (src : Payload) (p : Progress) (m : Nat) : Progress :=
  (List.range m).foldl (sendChunk s src) p

/-- DATA_BODY, CS up and the lock's release, where nothing fails. -/
def endCommand (s : State) (src : Payload) (p : Progress) : Progress :=
  ((p.sendChunks s src (nchunks s.cfg (payloadLen s.cfg src))).drive .cs true).release s

/-- A SEND_COMMAND, where nothing fails (40_channel.md R124). -/
def sendCommand (s : State) (op : Byte) (src : Payload) (p : Progress) : Progress :=
  (((((p.acquire s).drive .cs false).drive .dc false).sendOp s op).drive .dc true).endCommand s src

end Progress

/-- The state `s` has come to. -/
def reached (s : State) (p : Progress) : State :=
  { s with
    ports := s.portsWithSeq p.seq, busOwner := p.owner, pins := p.pins, trace := s.trace ++ p.events,
    env := s.env.spent p.spent 0 }

theorem reached_start {s : State} (hcur : s.curOk) : reached s (.start s) = s := by
  have hports : s.portsWithSeq s.seq = s.ports := by
    have hport : s.port = s.ports[s.cur] := List.getD_eq_getElem _ _ hcur
    exact (congrArg (s.ports.set s.cur) hport).trans (List.set_getElem_self hcur)
  simp only [reached, Progress.start, hports, List.append_nil]
  rfl

section Lines

variable {i : Instr} {s : State} {p : Progress} (hcur : s.curOk)
include hcur

theorem reached_seq (p : Progress) : (reached s p).seq = p.seq :=
  seq_of_ports (s := s) hcur rfl

theorem reached_portsWithSeq (p : Progress) (q : Machine.Seq) : (reached s p).portsWithSeq q = s.portsWithSeq q := by
  have hport : (reached s p).port = { s.port with seq := p.seq } := getD_set_self _ _ _ _ hcur
  rw [State.portsWithSeq, hport]
  exact List.set_set ..

theorem reached_setSeq (p : Progress) (q : Machine.Seq) : (reached s p).setSeq q = reached s { p with seq := q } := by
  show ({ reached s p with ports := (reached s p).portsWithSeq q } : State) = _
  rw [reached_portsWithSeq hcur]
  rfl

/-- A run goes on by one line. -/
theorem Runs.line {u : State} (hrun : Runs i u (reached s p)) {p' : Progress} {m : Micro}
    (hm : stepAt s.cfg i p.seq.pc = some m) (h : runMicro m (reached s p) = .next (reached s p'))
    (hne : m ≠ .entry .display := by nofun) : Runs i u (reached s p') := by
  refine hrun.trans (.of_exec (((exec_at_micro i (reached s p) m ?_).resolve_right fun he => hne he.1).trans h))
  rw [reached_seq hcur]; exact hm

theorem reached_acquire (hfree : p.owner = none) :
    runMicro .acquire (reached s p) = .next (reached s (p.acquire s)) := by
  obtain ⟨t, ht⟩ := runMicro_answers .acquire (reached s p) trivial
  obtain ⟨-, rfl⟩ := (runMicro_next _ _ t ht).resolve_right fun h => h.1 hfree
  rw [ht, reached_seq hcur, reached_portsWithSeq hcur]
  simp only [reached, Progress.acquire, List.append_assoc]

theorem reached_pin (pin : Pin) (lvl : Level) :
    runMicro (.pin pin lvl) (reached s p) = .next (reached s (p.drive pin lvl)) := by
  obtain ⟨t, ht⟩ := runMicro_answers (.pin pin lvl) (reached s p) trivial
  cases runMicro_next _ _ t ht
  rw [ht, reached_seq hcur, reached_portsWithSeq hcur]
  simp only [reached, Progress.drive, List.append_assoc]

theorem reached_releaseCmd (howner : p.owner = some s.cur) (hok : p.seq.ok = true) :
    runMicro .releaseCmd (reached s p) = .next (reached s (p.release s)) := by
  obtain ⟨t, ht⟩ := runMicro_answers .releaseCmd (reached s p) howner
  obtain ⟨-, rfl⟩ := runMicro_next _ _ t ht
  rw [ht, reached_seq hcur, reached_portsWithSeq hcur, hok]
  simp only [reached, Progress.release, List.append_assoc, if_true]

theorem reached_ret : runMicro .ret (reached s p) = .next (reached s { p with seq := Seq.idle }) := by
  obtain ⟨t, ht⟩ := runMicro_answers .ret (reached s p) trivial
  cases runMicro_next _ _ t ht
  rw [ht, reached_portsWithSeq hcur]
  rfl

end Lines

/-! ### Transfers that succeed -/

/-- The next of the transfers that succeed. -/
theorem goodXfers_next {s : State} {n k : Nat} (h : goodXfers s n) (hk : k < n) :
    ∃ r, s.env.xferIn.drop k = r :: s.env.xferIn.drop (k + 1) ∧ r.2 = true ∧ s.cfg.xferLimit ≤ r.1 := by
  obtain ⟨hlen, hgood⟩ := h
  have hlt : k < s.env.xferIn.length := by omega
  exact ⟨_, List.drop_eq_getElem_cons hlt, hgood _ (List.mem_take_iff_getElem.mpr ⟨k, by omega, rfl⟩)⟩

/-- A transfer of at most `XFER_LIMIT` bytes takes the next fixed outcome. -/
theorem reached_xfer {s : State} {p : Progress} {n : Nat} (hgood : goodXfers s n) (hspent : p.spent < n)
    {bytes : List Byte} (hlen : bytes.length ≤ s.cfg.xferLimit) : (reached s p).xfer bytes =
      ((bytes.length, true), reached s
        { p with events := p.events ++ [.xfer s.cur bytes bytes.length true], spent := p.spent + 1 }) := by
  obtain ⟨r, hdrop, hok, hlimit⟩ := goodXfers_next hgood hspent
  rw [xfer_good (reached s p) bytes r _ hdrop hok (hlen.trans hlimit)]
  simp only [reached, List.append_assoc]
  rfl

section Transfers

variable {i : Instr} {s : State} {p : Progress} {n : Nat} (hcur : s.curOk) (hlimit : 1 ≤ s.cfg.xferLimit)
  (hgood : goodXfers s n)
include hcur hlimit hgood

theorem reached_xferOp (op : Byte) (skip : Nat) (hspent : p.spent < n) :
    runMicro (.xferOp op skip) (reached s p) = .next (reached s (p.sendOp s op)) := by
  have hx := reached_xfer hgood hspent (bytes := [op]) hlimit
  simp only [runMicro, microXferOp, hx, reached_seq hcur, reached_setSeq hcur, xferOk, decide_true, Bool.and_true, if_true,
    List.length_singleton, Progress.sendOp]

theorem reached_xferChunk (src : Payload) (k skip : Nat) (hk : k < nchunks s.cfg (payloadLen s.cfg src))
    (hspent : p.spent < n) :
    runMicro (.xferChunk src k skip) (reached s p) = .next (reached s (p.sendChunk s src k)) := by
  have hx := reached_xfer hgood hspent (payloadChunk_length s.cfg s.fb src hlimit hk).2
  have hchunk : payloadChunk (reached s p).cfg (reached s p).fb src k = payloadChunk s.cfg s.fb src k := rfl
  simp only [runMicro, microXferChunk, hchunk, hx, reached_seq hcur, reached_setSeq hcur, xferOk, decide_true, Bool.and_true,
    if_true, Progress.sendChunk]

end Transfers

/-! ### Whole commands -/

theorem Progress.sendChunks_succ (s : State) (src : Payload) (p : Progress) (m : Nat) :
    p.sendChunks s src (m + 1) = (p.sendChunks s src m).sendChunk s src m := by
  rw [Progress.sendChunks, List.range_succ, List.foldl_append]; rfl

/-- The chunks sent, all at once. -/
theorem Progress.sendChunks_eq (s : State) (src : Payload) (p : Progress) (hok : p.seq.ok = true) (m : Nat) :
    p.sendChunks s src m =
      { p with
        seq := { p.seq with
          pc := p.seq.pc + m, sent := p.seq.sent + ((List.range m).flatMap (payloadChunk s.cfg s.fb src)).length },
        events := p.events ++ (List.range m).map fun k =>
          .xfer s.cur (payloadChunk s.cfg s.fb src k) (payloadChunk s.cfg s.fb src k).length true,
        spent := p.spent + m } := by
  induction m with
  | zero => simp [Progress.sendChunks]
  | succ m ih => simp [Progress.sendChunks_succ, ih, Progress.sendChunk, List.range_succ, hok, Nat.add_assoc]

theorem countP_commandEvents (c : Cfg) (f : FrameBuf) (p : Nat) (op : Byte) (src : Payload) :
    (commandEvents c f p op src).countP isXfer = 1 + nchunks c (payloadLen c src) := by
  have hchunks : (chunkEvents c f p src).countP isXfer = nchunks c (payloadLen c src) := by
    simp [chunkEvents, List.countP_map, Function.comp_def, isXfer]
  rw [commandEvents, List.countP_append, List.countP_append, hchunks]
  rfl

/-- What a SEND_COMMAND in which nothing fails comes to. -/
theorem Progress.sendCommand_eq (s : State) (op : Byte) (src : Payload) (p : Progress) (hlimit : 1 ≤ s.cfg.xferLimit) :
    p.sendCommand s op src =
      { seq := { p.seq with
          pc := p.seq.pc + (8 + nchunks s.cfg (payloadLen s.cfg src)), sent := 1 + (payloadAll s.cfg s.fb src).length,
          ok := true },
        owner := none, pins := { p.pins with cs := true, dc := true },
        events := p.events ++ commandEvents s.cfg s.fb s.cur op src,
        spent := p.spent + (commandEvents s.cfg s.fb s.cur op src).countP isXfer } := by
  rw [countP_commandEvents, ← flatMap_payloadChunk_all s.cfg s.fb src hlimit, Progress.sendCommand, Progress.endCommand,
    Progress.sendChunks_eq _ _ _ rfl]
  simp [Progress.acquire, Progress.drive, Progress.sendOp, Progress.release, commandEvents, chunkEvents, Pins.drive,
    Nat.add_assoc]
  omega

section Commands

variable {i : Instr} {s : State} {p : Progress} {src : Payload} {n : Nat} (hcur : s.curOk) (hlimit : 1 ≤ s.cfg.xferLimit)
  (hgood : goodXfers s n)
include hcur hlimit hgood

/-- DATA_BODY sends its chunks one after another (40_channel.md R123). -/
theorem runs_chunks (hok : p.seq.ok = true) (hlines : LinesAt s.cfg i p.seq.pc (dataBody s.cfg src)) {m : Nat}
    (hm : m ≤ nchunks s.cfg (payloadLen s.cfg src)) (hspent : p.spent + m ≤ n) :
    Runs i (reached s p) (reached s (p.sendChunks s src m)) := by
  induction m with
  | zero => exact .refl i _
  | succ m ih =>
    have hsent := ih (by omega) (by omega)
    rw [Progress.sendChunks_succ]
    refine hsent.line hcur (m := .xferChunk src m (nchunks s.cfg (payloadLen s.cfg src) - 1 - m)) ?_
      (reached_xferChunk hcur hlimit hgood src m _ hm ?_)
    · rw [Progress.sendChunks_eq s src p hok]; exact hlines m _ (dataBody_getElem? s.cfg src hm)
    · rw [Progress.sendChunks_eq s src p hok]; exact hspent

/-- The last lines of a logical command that did not fail. -/
theorem runs_endCommand {what : LogWhat} (howner : p.owner = some s.cur) (hok : p.seq.ok = true)
    (hlines : LinesAt s.cfg i p.seq.pc (commandEnd s.cfg src what))
    (hspent : p.spent + nchunks s.cfg (payloadLen s.cfg src) ≤ n) :
    Runs i (reached s p) (reached s (p.endCommand s src)) := by
  have hclosing := hlines.right
  rw [dataBody_length] at hclosing
  have hsent := runs_chunks hcur hlimit hgood hok hlines.left le_rfl hspent
  rw [Progress.endCommand]
  rw [Progress.sendChunks_eq s src p hok] at hsent ⊢
  have hraised := hsent.line hcur (hclosing 0 _ rfl) (reached_pin hcur .cs true)
  exact hraised.line hcur (hclosing 1 _ rfl) (reached_releaseCmd hcur howner hok)

/-- A SEND_COMMAND whose transfers succeed (R124). -/
theorem runs_command {op : Byte} (hfree : p.owner = none) (hlines : LinesAt s.cfg i p.seq.pc (sendCommand s.cfg op src))
    (hspent : p.spent + (commandEvents s.cfg s.fb s.cur op src).countP isXfer ≤ n) :
    Runs i (reached s p) (reached s (p.sendCommand s op src)) := by
  rw [countP_commandEvents, ← Nat.add_assoc] at hspent
  have hunspent : p.spent < n := by omega
  rw [sendCommand, List.append_assoc] at hlines
  have hopening := hlines.left
  have hacquired := (Runs.refl i _).line hcur (hopening 0 _ rfl) (reached_acquire hcur hfree)
  have hselected := hacquired.line hcur (hopening 1 _ rfl) (reached_pin hcur .cs false)
  have hdc := hselected.line hcur (hopening 2 _ rfl) (reached_pin hcur .dc false)
  have hop := hdc.line hcur (hopening 3 _ rfl) (reached_xferOp hcur hlimit hgood op _ hunspent)
  have hopened := hop.line hcur (hopening 4 _ rfl) (reached_pin hcur .dc true)
  exact hopened.trans (runs_endCommand hcur hlimit hgood rfl rfl hlines.right hspent)

end Commands

/-! ## A wire command alone (O26) -/

/-- The step list of a wire command (30_encoding.md R101, log 9). -/
theorem stepAt_wireCommand {i : Instr} {op : Byte} {src : Payload} (h : wireCommand i = some (op, src)) (c : Cfg) (pc : Nat) :
    stepAt c i pc = (sendCommand c op src ++ [.ret])[pc]? := by
  cases i with
  | init | display _ _ | displayFb | clear | sleep | status | fbSet _ _ _ | fbGet _ _ | fbClear | fbDraw _ | chCmd _ _
  | chData _ => cases h
  | wSwreset | wAutowriteHl _ | wAutowriteBw _ | wSoftstart _ | wGate _ | wDataEntry _ | wRamxWindow _ | wRamyWindow _
  | wBorder _ | wTempSensor _ | wUpdateCtrl2 _ | wMasterAct | wWriteBw _ | wWriteHl _ | wRamxCounter _ | wRamyCounter _
  | wDeepSleep => cases h; rfl

theorem sendCommand_length (c : Cfg) (op : Byte) (src : Payload) :
    (sendCommand c op src).length = 8 + nchunks c (payloadLen c src) := by
  simp only [sendCommand, List.length_append, List.length_cons, List.length_nil, dataBody_length]
  omega

/-- Settles O26: a SEND_COMMAND in which nothing fails, then the return. -/
theorem wireCommandCompletes : Obligations.WireCommandCompletes := by
  intro i op src s hwire hlegal hcur hpc hfree es hgood
  have hlimit := xferLimit_pos hlegal
  have hlines : LinesAt s.cfg i (Progress.start s).seq.pc (sendCommand s.cfg op src ++ [.ret]) := by
    intro k m hk
    rw [stepAt_wireCommand hwire, show (Progress.start s).seq.pc = 0 from hpc, Nat.zero_add, hk]
  have hcommand := runs_command hcur hlimit hgood (p := .start s) hfree hlines.left (Nat.zero_add _).le
  rw [reached_start hcur, Progress.sendCommand_eq s op src _ hlimit] at hcommand
  have hret := hlines.right
  rw [sendCommand_length] at hret
  have hrun := hcommand.line hcur (hret 0 _ rfl) (reached_ret hcur)
  show Runs i s _
  simpa only [reached, Progress.start, hfree, List.nil_append, Nat.zero_add] using hrun

end Sys2Proof.Proofs
end

section
/-! PROOFS. The family of spec/40_channel.md: the chunk split (O21, O22), SEND_COMMAND and SEND_DATA line by line (O23, O24,
O25), the whole runs of CH_CMD and CH_DATA (O27, O28, O29), and what the channel leaves as it was (O57). -/

namespace Sys2Proof.Proofs

open Sys2Proof.Machine Sys2Proof.Laws

/-! ## The chunk split (40_channel.md R121) -/

theorem payloadSlice_length {c : Cfg} (f : FrameBuf) {src : Payload} (lo : Nat) {hi : Nat} (h : hi ≤ payloadLen c src) :
    (payloadSlice f src lo hi).length = hi - lo := by
  cases src with
  | bytes s =>
    rw [payloadLen] at h
    rw [payloadSlice, List.length_take, List.length_drop]
    omega
  | plane p => rw [payloadSlice, List.length_map, List.length_range]

theorem payloadChunk_length_eq (c : Cfg) (f : FrameBuf) (src : Payload) (k : Nat) :
    (payloadChunk c f src k).length = min ((k + 1) * c.xferLimit) (payloadLen c src) - k * c.xferLimit :=
  payloadSlice_length f _ (Nat.min_le_right _ _)

theorem payloadAll_length (c : Cfg) (f : FrameBuf) (src : Payload) : (payloadAll c f src).length = payloadLen c src :=
  payloadSlice_length (c := c) f 0 le_rfl

/-- There is a chunk `k` exactly where it would start within the payload. -/
theorem lt_nchunks_iff {c : Cfg} (hlimit : 1 ≤ c.xferLimit) {n k : Nat} : k < nchunks c n ↔ k * c.xferLimit < n := by
  rw [nchunks, ceilDiv, ← Nat.succ_le_iff, Nat.le_div_iff_mul_le hlimit, Nat.succ_mul]
  omega

theorem nchunks_zero {c : Cfg} (hlimit : 1 ≤ c.xferLimit) : nchunks c 0 = 0 :=
  Nat.eq_zero_of_not_pos fun h => Nat.not_lt_zero _ ((lt_nchunks_iff hlimit).mp h)

/-- The last chunk starts within the payload, and the chunks reach its end. -/
theorem nchunks_bounds {c : Cfg} (hlimit : 1 ≤ c.xferLimit) {n : Nat} (hn : 1 ≤ n) :
    (nchunks c n - 1) * c.xferLimit < n ∧ n ≤ nchunks c n * c.xferLimit := by
  have hpos : 0 < nchunks c n := (lt_nchunks_iff hlimit).mpr (by omega)
  exact ⟨(lt_nchunks_iff hlimit).mp (by omega), Nat.le_of_not_lt fun h => lt_irrefl _ ((lt_nchunks_iff hlimit).mpr h)⟩

/-- A chunk with another after it is full. -/
theorem payloadChunk_length_full {c : Cfg} (f : FrameBuf) {src : Payload} (hlimit : 1 ≤ c.xferLimit) {k : Nat}
    (hk : k + 1 < nchunks c (payloadLen c src)) : (payloadChunk c f src k).length = c.xferLimit := by
  have hfull : (k + 1) * c.xferLimit < payloadLen c src := (lt_nchunks_iff hlimit).mp hk
  rw [payloadChunk_length_eq, Nat.min_eq_left hfull.le, Nat.succ_mul, Nat.add_sub_cancel_left]

/-- The last chunk has what is left of the payload. -/
theorem payloadChunk_length_last {c : Cfg} (f : FrameBuf) {src : Payload} (hlimit : 1 ≤ c.xferLimit) {k : Nat}
    (hk : k + 1 = nchunks c (payloadLen c src)) :
    (payloadChunk c f src k).length = payloadLen c src - (nchunks c (payloadLen c src) - 1) * c.xferLimit := by
  have hend : ¬(k + 1) * c.xferLimit < payloadLen c src := fun h => by
    have := (lt_nchunks_iff hlimit).mpr h
    omega
  rw [payloadChunk_length_eq, Nat.min_eq_right (Nat.le_of_not_lt hend), ← hk, Nat.add_sub_cancel]

/-- The bytes of the chunks before chunk `k`. -/
theorem flatMap_payloadChunk_length {c : Cfg} (f : FrameBuf) {src : Payload} (hlimit : 1 ≤ c.xferLimit) {k : Nat}
    (hk : k < nchunks c (payloadLen c src)) :
    ((List.range k).flatMap (payloadChunk c f src)).length = k * c.xferLimit := by
  have hstart : k * c.xferLimit < payloadLen c src := (lt_nchunks_iff hlimit).mp hk
  rw [flatMap_payloadChunk, Nat.min_eq_left hstart.le, payloadSlice_length (c := c) f 0 hstart.le, Nat.sub_zero]

/-- Settles O21: the lengths of the chunks, and the payload cut at multiples of XFER_LIMIT. -/
theorem chunksCoverPayload : Obligations.ChunksCoverPayload := by
  intro c f src hlimit
  refine ⟨rfl, fun k hk => payloadChunk_length_full f hlimit hk,
    fun k hk => ⟨payloadChunk_length_last f hlimit hk, payloadChunk_length c f src hlimit (by omega)⟩,
    flatMap_payloadChunk_all c f src hlimit, payloadAll_length c f src, dataBody_length c src,
    fun k hk => ⟨_, dataBody_getElem? c src hk⟩⟩

theorem countP_chunkEvents (c : Cfg) (f : FrameBuf) (p : Nat) (src : Payload) :
    (chunkEvents c f p src).countP isXfer = nchunks c (payloadLen c src) := by
  simp [chunkEvents, List.countP_map, Function.comp_def, isXfer]

theorem countP_dataEvents (c : Cfg) (f : FrameBuf) (p : Nat) (src : Payload) :
    (dataEvents c f p src).countP isXfer = nchunks c (payloadLen c src) := by
  rw [dataEvents, List.countP_append, List.countP_append, countP_chunkEvents]
  exact Nat.zero_add _

/-- A payload of one byte more than two full chunks. -/
theorem nchunks_two_full_and_one {c : Cfg} (hlimit : 1 ≤ c.xferLimit) : nchunks c (2 * c.xferLimit + 1) = 3 := by
  have hthird : 2 < nchunks c (2 * c.xferLimit + 1) := (lt_nchunks_iff hlimit).mpr (by omega)
  have hlast : ¬3 < nchunks c (2 * c.xferLimit + 1) := fun h => by
    have := (lt_nchunks_iff hlimit).mp h
    omega
  omega

/-- Settles O22: a transfer a chunk, and one for the opcode. -/
theorem chunkCountLaw : Obligations.ChunkCountLaw := fun c hlimit =>
  ⟨nchunks_two_full_and_one hlimit, nchunks_zero hlimit, fun _ hn => nchunks_bounds hlimit hn, fun f p op src =>
    ⟨countP_dataEvents c f p src, (countP_commandEvents c f p op src).trans (Nat.add_comm _ _)⟩⟩

/-! ## The lines of a logical command, as exact next states -/

theorem LinesAt.of_stepAt {c : Cfg} {i : Instr} {l : List Micro} (h : ∀ pc, stepAt c i pc = l[pc]?) : LinesAt c i 0 l := by
  intro k m hk
  rw [Nat.zero_add, h, hk]

/-- The line at place `k` is the one at `pc`. -/
theorem LinesAt.at {c : Cfg} {i : Instr} {b : Nat} {l : List Micro} (h : LinesAt c i b l) {k pc : Nat} {m : Micro}
    (hk : l[k]? = some m) (hpc : pc = b + k) : stepAt c i pc = some m := by
  rw [hpc]; exact h k m hk

theorem LinesAt.last {c : Cfg} {i : Instr} {l : List Micro} {m : Micro} (h : LinesAt c i 0 (l ++ [m])) {pc : Nat}
    (hpc : pc = l.length) : stepAt c i pc = some m :=
  h.right.at (k := 0) rfl (hpc.trans (Nat.zero_add _).symm)

/-- A transfer whose next outcome is fixed, in full or not. -/
theorem xfer_fixed {s : State} (bytes : List Byte) {m : Nat} {ok : Bool} {more : List (Nat × Bool)}
    (h : s.env.xferIn = (m, ok) :: more) : s.xfer bytes = ((min m bytes.length, ok),
      { s with
        env := { s.env with xferIn := more }, trace := s.trace ++ [.xfer s.cur bytes (min m bytes.length) ok] }) := by
  rw [State.xfer, drawXfer_cons s (m, ok) more h]; rfl

/-- A transfer succeeds where it answers `ok` and could have taken every byte. -/
theorem xferOk_min (bytes : List Byte) (m : Nat) (ok : Bool) :
    xferOk bytes (min m bytes.length, ok) = decide (ok = true ∧ bytes.length ≤ m) := by
  rw [xferOk, Bool.decide_and, Bool.decide_eq_true]
  congr 1
  exact decide_eq_decide.mpr min_eq_right_iff

section Line

variable {i : Instr} {s : State}

theorem exec_line {m : Micro} (hm : stepAt s.cfg i s.seq.pc = some m) (hne : m ≠ .entry .display) :
    exec i s = runMicro m s :=
  (exec_at_micro i s m hm).resolve_right fun h => hne h.1

theorem exec_acquire_free (hm : stepAt s.cfg i s.seq.pc = some .acquire) (hfree : s.busOwner = none) :
    exec i s = .next
      { s with
        busOwner := some s.cur, trace := s.trace ++ [.lock s.cur .acq],
        ports := s.portsWithSeq { s.seq with pc := s.seq.pc + 1, sent := 0, ok := true } } :=
  (exec_line hm nofun).trans (microAcquire_free s hfree)

theorem exec_acquire_held (hm : stepAt s.cfg i s.seq.pc = some .acquire) {p : Nat} (hheld : s.busOwner = some p) :
    exec i s = .next s :=
  (exec_line hm nofun).trans (microAcquire_held s p hheld)

theorem exec_pin {pin : Pin} {lvl : Level} (hm : stepAt s.cfg i s.seq.pc = some (.pin pin lvl)) :
    exec i s = .next
      { s with
        pins := s.pins.drive pin lvl, trace := s.trace ++ [.pin pin lvl],
        ports := s.portsWithSeq { s.seq with pc := s.seq.pc + 1 } } :=
  exec_line hm nofun

theorem exec_xferOp {op : Byte} {skip : Nat} (hm : stepAt s.cfg i s.seq.pc = some (.xferOp op skip)) {m : Nat} {ok : Bool}
    {more : List (Nat × Bool)} (hin : s.env.xferIn = (m, ok) :: more) :
    exec i s = .next
      { s with
        env := { s.env with xferIn := more }, trace := s.trace ++ [.xfer s.cur [op] (min m 1) ok],
        ports := s.portsWithSeq
          { s.seq with
            pc := s.seq.pc + if ok = true ∧ 1 ≤ m then 1 else 1 + skip, sent := min m 1,
            ok := decide (ok = true ∧ 1 ≤ m) } } := by
  have hok := xferOk_min [op] m ok
  rw [List.length_singleton] at hok
  rw [exec_line hm nofun, runMicro, microXferOp, xfer_fixed [op] hin]
  simp only [List.length_singleton, hok, decide_eq_true_eq]
  rfl

theorem exec_xferChunk {src : Payload} {k skip : Nat} (hm : stepAt s.cfg i s.seq.pc = some (.xferChunk src k skip)) {m : Nat}
    {ok : Bool} {more : List (Nat × Bool)} (hin : s.env.xferIn = (m, ok) :: more) :
    let bytes := payloadChunk s.cfg s.fb src k
    exec i s = .next
      { s with
        env := { s.env with xferIn := more }, trace := s.trace ++ [.xfer s.cur bytes (min m bytes.length) ok],
        ports := s.portsWithSeq
          { s.seq with
            pc := s.seq.pc + if ok = true ∧ bytes.length ≤ m then 1 else 1 + skip,
            sent := s.seq.sent + min m bytes.length, ok := decide (ok = true ∧ bytes.length ≤ m) } } := by
  rw [exec_line hm nofun, runMicro, microXferChunk, xfer_fixed _ hin]
  simp only [xferOk_min, decide_eq_true_eq]
  rfl

theorem exec_releaseCmd (hm : stepAt s.cfg i s.seq.pc = some .releaseCmd) (howner : s.busOwner = some s.cur) :
    exec i s = .next
      { s with
        busOwner := none, trace := s.trace ++ [.lock s.cur .rel],
        ports := s.portsWithSeq { s.seq with pc := s.seq.pc + if s.seq.ok then 2 else 1 } } :=
  (exec_line hm nofun).trans (releaseBus_owner _ s howner)

theorem exec_logXfer {what : LogWhat} (hm : stepAt s.cfg i s.seq.pc = some (.logXfer what)) :
    exec i s = .next
      { s with
        err := s.err.logged what s.seq.sent, trace := s.trace ++ [.log s.cur what s.seq.sent],
        ports := s.portsWithSeq { s.seq with pc := s.seq.pc + 1, xf := true } } :=
  exec_line hm nofun

theorem exec_respondSent (hm : stepAt s.cfg i s.seq.pc = some .respondSent) :
    exec i s = .next
      { s with
        ports := s.portsWithSeq Seq.idle,
        trace := s.trace ++
          [.resp s.cur { code := .ok, xf := !s.seq.ok, sq := false, data := .sent (sentWord s.seq.sent) }] } :=
  exec_line hm nofun

theorem exec_ret (hm : stepAt s.cfg i s.seq.pc = some .ret) :
    exec i s = .next { s with ports := s.portsWithSeq Seq.idle } :=
  exec_line hm nofun

end Line

/-! ### From the first chunk on: the same lines in SEND_COMMAND and SEND_DATA -/

section CommandEnd

variable {i : Instr} {s : State} {e : Nat} {src : Payload} {what : LogWhat}
  (hlines : LinesAt s.cfg i e (commandEnd s.cfg src what))
include hlines

/-- The line of chunk `k`; after a failure the next line is `PinWrite(CS, 1)` (40_channel.md R123). -/
theorem exec_chunk_line {k m : Nat} {ok : Bool} {more : List (Nat × Bool)}
    (hk : k < nchunks s.cfg (payloadLen s.cfg src)) (hpc : s.seq.pc = e + k) (hin : s.env.xferIn = (m, ok) :: more) :
    let bytes := payloadChunk s.cfg s.fb src k
    exec i s = .next
      { s with
        env := { s.env with xferIn := more }, trace := s.trace ++ [.xfer s.cur bytes (min m bytes.length) ok],
        ports := s.portsWithSeq
          { s.seq with
            pc := if ok = true ∧ bytes.length ≤ m then e + 1 + k else e + nchunks s.cfg (payloadLen s.cfg src),
            sent := s.seq.sent + min m bytes.length, ok := decide (ok = true ∧ bytes.length ≤ m) } } := by
  intro bytes
  have hpcs : (s.seq.pc + if ok = true ∧ bytes.length ≤ m then 1 else
      1 + (nchunks s.cfg (payloadLen s.cfg src) - 1 - k)) =
      if ok = true ∧ bytes.length ≤ m then e + 1 + k else e + nchunks s.cfg (payloadLen s.cfg src) := by
    split <;> omega
  rw [exec_xferChunk (hlines.left.at (dataBody_getElem? s.cfg src hk) hpc) hin, hpcs]

/-- The lines after the chunks. -/
theorem commandEnd_closing {j pc : Nat} {m : Micro} (hm : [Micro.pin .cs true, .releaseCmd, .logXfer what][j]? = some m)
    (hpc : pc = e + j + nchunks s.cfg (payloadLen s.cfg src)) : stepAt s.cfg i pc = some m :=
  hlines.right.at hm (by rw [dataBody_length]; omega)

theorem exec_csUp_line (hpc : s.seq.pc = e + nchunks s.cfg (payloadLen s.cfg src)) :
    exec i s = .next
      { s with
        pins := { s.pins with cs := true }, trace := s.trace ++ [.pin .cs true],
        ports := s.portsWithSeq { s.seq with pc := e + 1 + nchunks s.cfg (payloadLen s.cfg src) } } := by
  rw [exec_pin (commandEnd_closing hlines (j := 0) rfl hpc), hpc, Nat.add_right_comm]; rfl

/-- The release goes past LOG_XFER where the command did not fail (R124). -/
theorem exec_releaseCmd_line (hpc : s.seq.pc = e + 1 + nchunks s.cfg (payloadLen s.cfg src))
    (howner : s.busOwner = some s.cur) :
    exec i s = .next
      { s with
        busOwner := none, trace := s.trace ++ [.lock s.cur .rel],
        ports := s.portsWithSeq
          { s.seq with
            pc := if s.seq.ok then e + 3 + nchunks s.cfg (payloadLen s.cfg src)
              else e + 2 + nchunks s.cfg (payloadLen s.cfg src) } } := by
  have hpcs : (s.seq.pc + if s.seq.ok then 2 else 1) = if s.seq.ok then e + 3 + nchunks s.cfg (payloadLen s.cfg src)
      else e + 2 + nchunks s.cfg (payloadLen s.cfg src) := by
    split <;> omega
  rw [exec_releaseCmd (commandEnd_closing hlines (j := 1) rfl hpc) howner, hpcs]

theorem exec_logXfer_line (hpc : s.seq.pc = e + 2 + nchunks s.cfg (payloadLen s.cfg src)) :
    exec i s = .next
      { s with
        err := s.err.logged what s.seq.sent, trace := s.trace ++ [.log s.cur what s.seq.sent],
        ports := s.portsWithSeq { s.seq with pc := e + 3 + nchunks s.cfg (payloadLen s.cfg src), xf := true } } := by
  rw [exec_logXfer (commandEnd_closing hlines (j := 2) rfl hpc), hpc, Nat.add_right_comm]

end CommandEnd

/-- The lines of SEND_COMMAND before its payload. -/
def commandOpening (c : Cfg) (op : Byte) (src : Payload) : List Micro :=
  [.acquire, .pin .cs false, .pin .dc false, .xferOp op (1 + nchunks c (payloadLen c src)), .pin .dc true]

theorem sendCommand_eq (c : Cfg) (op : Byte) (src : Payload) :
    sendCommand c op src = commandOpening c op src ++ commandEnd c src (.opcode op) := List.append_assoc ..

/-- The lines of SEND_DATA before its payload. -/
def dataOpening : List Micro := [.acquire, .pin .cs false, .pin .dc true]

theorem sendData_eq (c : Cfg) (src : Payload) : sendData c src = dataOpening ++ commandEnd c src .data :=
  List.append_assoc ..

theorem sendData_length (c : Cfg) (src : Payload) : (sendData c src).length = 6 + nchunks c (payloadLen c src) := by
  simp only [sendData, List.length_append, List.length_cons, List.length_nil, dataBody_length]
  omega

theorem linesAt_chCmd (c : Cfg) (op : Byte) (payload : List Byte) :
    LinesAt c (.chCmd op payload) 0 (sendCommand c op (.bytes payload) ++ [.respondSent]) := .of_stepAt fun _ => rfl

theorem linesAt_chData (c : Cfg) (payload : List Byte) :
    LinesAt c (.chData payload) 0 (sendData c (.bytes payload) ++ [.respondSent]) := .of_stepAt fun _ => rfl

theorem linesAt_wireCommand {i : Instr} {op : Byte} {src : Payload} (h : wireCommand i = some (op, src)) (c : Cfg) :
    LinesAt c i 0 (sendCommand c op src ++ [.ret]) := .of_stepAt (stepAt_wireCommand h c)

/-- A part of a step list, from its place on. -/
theorem linesAt_of_prefix {c : Cfg} {i : Instr} {b : Nat} {l : List Micro} (hne : l ≠ [])
    (h : l <+: (stepList c i).drop b) : LinesAt c i b l := by
  have hdraw : ∀ src, i ≠ .fbDraw src := by
    rintro src rfl
    exact hne (List.prefix_nil.mp (by simpa [stepList] using h))
  intro k m hk
  rw [stepAt_eq c i _ hdraw, ← List.getElem?_drop]
  obtain ⟨hlt, rfl⟩ := List.getElem?_eq_some_iff.mp hk
  exact List.prefix_iff_getElem?.mp h k hlt

/-- The opcode's line; after a failure the next line is `PinWrite(CS, 1)` (R124). -/
theorem exec_opcode_line {i : Instr} {s : State} {b : Nat} {op : Byte} {src : Payload}
    (hlines : LinesAt s.cfg i b (commandOpening s.cfg op src)) {m : Nat} {ok : Bool} {more : List (Nat × Bool)}
    (hpc : s.seq.pc = b + 3) (hin : s.env.xferIn = (m, ok) :: more) :
    exec i s = .next
      { s with
        env := { s.env with xferIn := more }, trace := s.trace ++ [.xfer s.cur [op] (min m 1) ok],
        ports := s.portsWithSeq
          { s.seq with
            pc := if ok = true ∧ 1 ≤ m then b + 4 else b + 5 + nchunks s.cfg (payloadLen s.cfg src), sent := min m 1,
            ok := decide (ok = true ∧ 1 ≤ m) } } := by
  have hpcs : (s.seq.pc + if ok = true ∧ 1 ≤ m then 1 else 1 + (1 + nchunks s.cfg (payloadLen s.cfg src))) =
      if ok = true ∧ 1 ≤ m then b + 4 else b + 5 + nchunks s.cfg (payloadLen s.cfg src) := by
    split <;> omega
  rw [exec_xferOp (hlines.at (k := 3) rfl hpc) hin, hpcs]

/-- Settles O24: each line of SEND_DATA where CH_DATA has it. -/
theorem sendDataLines : Obligations.SendDataLines := by
  intro payload s
  dsimp only
  have hlines := (linesAt_chData s.cfg payload).left
  rw [sendData_eq] at hlines
  have hopen := hlines.left
  have hend := hlines.right
  refine ⟨fun hpc hfree => ?_, fun o hpc hheld => exec_acquire_held (hopen.at (k := 0) rfl hpc) hheld, fun hpc => ?_,
    fun hpc => ?_, fun k m ok more hk hpc hin => exec_chunk_line hend hk hpc hin, fun hpc => exec_csUp_line hend hpc,
    fun hpc howner => exec_releaseCmd_line hend hpc howner, fun hpc => exec_logXfer_line hend hpc⟩
  · rw [exec_acquire_free (hopen.at (k := 0) rfl hpc) hfree, hpc]
  · rw [exec_pin (hopen.at (k := 1) rfl hpc), hpc]; rfl
  · rw [exec_pin (hopen.at (k := 2) rfl hpc), hpc]; rfl

/-! ### Where the protocol requests hold their commands (41_protocol.md R159, R161, R163, R165, R167) -/

/-- The parts of a request that uploads and refreshes. -/
def displayParts (c : Cfg) (srcB srcH : Payload) : List (List Micro) :=
  [[.entry .display], sendCommand c 0x4F (.bytes c.pRamyOrigin), sendCommand c 0x24 srcB, sendCommand c 0x26 srcH,
    [.startRefresh], sendCommand c 0x22 (.bytes [c.pRefreshMode]), sendCommand c 0x20 (.bytes []), [.delay .act], busyWait,
    [.exit .display]]

/-- The parts of DISPLAY_FB, which also opens and closes the upload window. -/
def displayFbParts (c : Cfg) : List (List Micro) :=
  [[.entry .display], sendCommand c 0x4F (.bytes c.pRamyOrigin), [.openWindow], sendCommand c 0x24 (.plane .black),
    sendCommand c 0x26 (.plane .hl), [.closeWindow], [.startRefresh], sendCommand c 0x22 (.bytes [c.pRefreshMode]),
    sendCommand c 0x20 (.bytes []), [.delay .act], busyWait, [.exit .display]]

/-- A row of INIT_SEQ: its command, and its wait where the table has one. -/
def rowSteps (c : Cfg) (r : Byte × List Byte × Bool) : List Micro :=
  sendCommand c r.1 (.bytes r.2.1) ++ if r.2.2 then busyWait else []

theorem flatten_displayParts (c : Cfg) (b h : List Byte) :
    (displayParts c (.bytes (padB c b)) (.bytes (padH c h))).flatten = displaySteps c b h := by
  simp only [displayParts, displaySteps, uploadSteps, refreshSteps, List.flatten_cons, List.flatten_nil, List.append_assoc,
    List.append_nil]
  rfl

theorem flatten_displayFbParts (c : Cfg) : (displayFbParts c).flatten = displayFbSteps c := by
  simp only [displayFbParts, displayFbSteps, refreshSteps, List.flatten_cons, List.flatten_nil, List.append_assoc,
    List.append_nil]
  rfl

theorem initSeq_eq_rows (c : Cfg) : initSeq c = (initRows c).flatMap (rowSteps c) := by
  delta initSeq
  simp only [initRows, List.flatMap_cons, List.flatMap_nil, rowSteps, List.append_assoc, List.append_nil, if_true,
    Bool.false_eq_true, if_false]
  rfl

theorem infix_of_mem_parts {parts : List (List Micro)} {l whole : List Micro} (hwhole : parts.flatten = whole)
    (h : l ∈ parts) : l <:+: whole := hwhole ▸ List.infix_of_mem_flatten h

theorem sendCommand_mem_displayParts {c : Cfg} {op : Byte} {src srcB srcH : Payload}
    (h : (op, src) ∈ protocolCommands.uploadCommands c srcB srcH) : sendCommand c op src ∈ displayParts c srcB srcH := by
  simp only [protocolCommands.uploadCommands, List.mem_cons, Prod.mk.injEq, List.not_mem_nil, or_false] at h
  simp only [displayParts, List.mem_cons]
  rcases h with ⟨rfl, rfl⟩ | ⟨rfl, rfl⟩ | ⟨rfl, rfl⟩ | ⟨rfl, rfl⟩ | ⟨rfl, rfl⟩ <;> simp only [true_or, or_true]

/-- DISPLAY_FB has the parts of a DISPLAY of the planes. -/
theorem displayParts_sublist (c : Cfg) : (displayParts c (.plane .black) (.plane .hl)).Sublist (displayFbParts c) :=
  .cons_cons _ (.cons_cons _ (.cons _ (.cons_cons _ (.cons_cons _ (.cons _ (.refl _))))))

/-- The step list of a protocol request holds every command its rule names. -/
theorem sendCommand_infix {c : Cfg} {i : Instr} {op : Byte} {src : Payload} (h : (op, src) ∈ protocolCommands c i) :
    sendCommand c op src <:+: stepList c i := by
  cases i with
  | init =>
    obtain ⟨r, hr, hrow⟩ := List.mem_map.mp h
    cases hrow
    have hcommand : sendCommand c r.1 (.bytes r.2.1) <:+: rowSteps c r := (List.prefix_append ..).isInfix
    have hrows : rowSteps c r <:+: initSeq c := by
      rw [initSeq_eq_rows]
      exact List.infix_of_mem_flatten (List.mem_map_of_mem hr)
    exact (hcommand.trans hrows).trans (List.infix_append ([.entry .init] ++ resetPulse) _ [.exit .init])
  | display b hl => exact infix_of_mem_parts (flatten_displayParts c b hl) (sendCommand_mem_displayParts h)
  | displayFb =>
    exact infix_of_mem_parts (flatten_displayFbParts c) ((displayParts_sublist c).mem (sendCommand_mem_displayParts h))
  | clear => exact infix_of_mem_parts (flatten_displayParts c [] []) (sendCommand_mem_displayParts h)
  | sleep =>
    cases List.mem_singleton.mp h
    exact ⟨[.entry .sleep], [.exit .sleep], rfl⟩
  | status | fbSet _ _ _ | fbGet _ _ | fbClear | fbDraw _ | chCmd _ _ | chData _ | wSwreset | wAutowriteHl _
  | wAutowriteBw _ | wSoftstart _ | wGate _ | wDataEntry _ | wRamxWindow _ | wRamyWindow _ | wBorder _ | wTempSensor _
  | wUpdateCtrl2 _ | wMasterAct | wWriteBw _ | wWriteHl _ | wRamxCounter _ | wRamyCounter _ | wDeepSleep => cases h

/-- The places of SEND_COMMAND: at the start of a wire command or CH_CMD, or where the step list holds it. -/
theorem linesAt_sendCommand {c : Cfg} {i : Instr} {b : Nat} {op : Byte} {src : Payload}
    (h : (b = 0 ∧ (wireCommand i = some (op, src) ∨ ∃ payload, i = .chCmd op payload ∧ src = .bytes payload)) ∨
      sendCommand c op src <+: (stepList c i).drop b) : LinesAt c i b (sendCommand c op src) := by
  obtain ⟨rfl, hwire | ⟨payload, rfl, rfl⟩⟩ | hpre := h
  · exact (linesAt_wireCommand hwire c).left
  · exact (linesAt_chCmd c op payload).left
  · exact linesAt_of_prefix nofun hpre

/-- Settles O23: each line of SEND_COMMAND wherever a step list has it. -/
theorem sendCommandLines : Obligations.SendCommandLines := by
  refine ⟨fun c i op src h => ?_, fun i b op src s hplace => ?_⟩
  · obtain ⟨before, after, hlist⟩ := sendCommand_infix h
    refine ⟨before.length, ?_⟩
    rw [← hlist, List.append_assoc, List.drop_left]
    exact List.prefix_append ..
  · dsimp only
    have hlines := linesAt_sendCommand hplace
    rw [sendCommand_eq] at hlines
    have hopen := hlines.left
    have hend := hlines.right
    refine ⟨fun hpc hfree => ?_, fun o hpc hheld => exec_acquire_held (hopen.at (k := 0) rfl hpc) hheld, fun hpc => ?_,
      fun hpc => ?_, fun m ok more hpc hin => exec_opcode_line hopen hpc hin, fun hpc => ?_,
      fun k m ok more hk hpc hin => exec_chunk_line hend hk hpc hin, fun hpc => exec_csUp_line hend hpc,
      fun hpc howner => exec_releaseCmd_line hend hpc howner, fun hpc => exec_logXfer_line hend hpc⟩
    · rw [exec_acquire_free (hopen.at (k := 0) rfl hpc) hfree, hpc]
    · rw [exec_pin (hopen.at (k := 1) rfl hpc), hpc]; rfl
    · rw [exec_pin (hopen.at (k := 2) rfl hpc), hpc]; rfl
    · rw [exec_pin (hopen.at (k := 4) rfl hpc), hpc]; rfl

/-- Settles O25: the line after the last one of the logical command. -/
theorem channelLastLines : Obligations.ChannelLastLines := by
  intro s
  refine ⟨⟨sentWord s.seq.sent, sentWord_toNat _, fun op payload hpc => ?_, fun payload hpc => ?_⟩,
    fun i op src hwire hpc => ?_⟩
  · have hend := hpc.trans (sendCommand_length s.cfg op (.bytes payload)).symm
    exact exec_respondSent ((linesAt_chCmd s.cfg op payload).last hend)
  · have hend := hpc.trans (sendData_length s.cfg (.bytes payload)).symm
    exact exec_respondSent ((linesAt_chData s.cfg payload).last hend)
  · exact exec_ret ((linesAt_wireCommand hwire s.cfg).last (hpc.trans (sendCommand_length s.cfg op src).symm))

/-! ## Whole runs of the channel requests -/

namespace Progress

/-- The lines that open a logical command: the lock taken, CS at 0, DC at `lvl`. -/
def openWith (s : State) (lvl : Level) (p : Progress) : Progress := ((p.acquire s).drive .cs false).drive .dc lvl

/-- The lines of SEND_COMMAND before its payload, where the opcode transfer succeeds. -/
def openCommand (s : State) (op : Byte) (p : Progress) : Progress := ((p.openWith s false).sendOp s op).drive .dc true

/-- The response of CH_CMD and CH_DATA. -/
def answer (s : State) (p : Progress) : Progress :=
  { p with
    seq := Seq.idle,
    events := p.events ++
      [.resp s.cur { code := .ok, xf := !p.seq.ok, sq := false, data := .sent (sentWord p.seq.sent) }] }

/-- A transfer of `bytes` that answers `(m, ok)` and fails: the next `skip` lines are left out, and `sent` is the command's
count with it. -/
def failXfer (s : State) (bytes : List Byte) (m : Nat) (ok : Bool) (skip sent : Nat) (p : Progress) : Progress :=
  { p with
    seq := { p.seq with pc := p.seq.pc + (1 + skip), sent := sent, ok := false },
    events := p.events ++ [.xfer s.cur bytes (min m bytes.length) ok], spent := p.spent + 1 }

/-- `Release(BUS)` after a command that failed. -/
def releaseFailed (s : State) (p : Progress) : Progress :=
  { p with seq := { p.seq with pc := p.seq.pc + 1 }, owner := none, events := p.events ++ [.lock s.cur .rel] }

/-- LOG_XFER, but for the error registers, which are the state's. -/
def log (s : State) (what : LogWhat) (p : Progress) : Progress :=
  { p with
    seq := { p.seq with pc := p.seq.pc + 1, xf := true }, events := p.events ++ [.log s.cur what p.seq.sent] }

/-- The lines of a channel request after a failed transfer. -/
def endFailed (s : State) (what : LogWhat) (p : Progress) : Progress :=
  (((p.drive .cs true).releaseFailed s).log s what).answer s

theorem endFailed_eq (s : State) (what : LogWhat) (p : Progress) (hok : p.seq.ok = false) : p.endFailed s what =
    { p with
      seq := Seq.idle, owner := none, pins := { p.pins with cs := true },
      events := p.events ++ [.pin .cs true, .lock s.cur .rel, .log s.cur what p.seq.sent,
        .resp s.cur { code := .ok, xf := true, sq := false, data := .sent (sentWord p.seq.sent) }] } := by
  simp [endFailed, drive, releaseFailed, log, answer, Pins.drive, hok]

/-- DATA_BODY and the last lines of a command, all at once. -/
theorem endCommand_eq (s : State) (src : Payload) (p : Progress) (hok : p.seq.ok = true) (hlimit : 1 ≤ s.cfg.xferLimit) :
    p.endCommand s src =
      { seq := { p.seq with
          pc := p.seq.pc + nchunks s.cfg (payloadLen s.cfg src) + 3, sent := p.seq.sent + payloadLen s.cfg src },
        owner := none, pins := { p.pins with cs := true },
        events := p.events ++ chunkEvents s.cfg s.fb s.cur src ++ [.pin .cs true, .lock s.cur .rel],
        spent := p.spent + nchunks s.cfg (payloadLen s.cfg src) } := by
  rw [endCommand, sendChunks_eq s src p hok, flatMap_payloadChunk_all s.cfg s.fb src hlimit, payloadAll_length]
  simp [drive, release, chunkEvents, Pins.drive]

end Progress

section Lines

variable {i : Instr} {s : State} {p : Progress} (hcur : s.curOk)
include hcur

theorem reached_respondSent : runMicro .respondSent (reached s p) = .next (reached s (p.answer s)) := by
  obtain ⟨t, ht⟩ := runMicro_answers .respondSent (reached s p) trivial
  cases runMicro_next _ _ t ht
  rw [ht, reached_seq hcur, reached_portsWithSeq hcur]
  simp only [reached, Progress.answer, List.append_assoc]

theorem reached_releaseCmd_failed (howner : p.owner = some s.cur) (hok : p.seq.ok = false) :
    runMicro .releaseCmd (reached s p) = .next (reached s (p.releaseFailed s)) := by
  obtain ⟨t, ht⟩ := runMicro_answers .releaseCmd (reached s p) howner
  obtain ⟨-, rfl⟩ := runMicro_next _ _ t ht
  rw [ht, reached_seq hcur, reached_portsWithSeq hcur, hok]
  simp only [reached, Progress.releaseFailed, List.append_assoc, Bool.false_eq_true, if_false]

/-- The state with a failed transfer logged. -/
theorem reached_logXfer (what : LogWhat) : runMicro (.logXfer what) (reached s p) =
    .next (reached { s with err := s.err.logged what p.seq.sent } (p.log s what)) := by
  obtain ⟨t, ht⟩ := runMicro_answers (.logXfer what) (reached s p) trivial
  cases runMicro_next _ _ t ht
  rw [ht, reached_seq hcur, reached_portsWithSeq hcur]
  simp only [reached, Progress.log, List.append_assoc]
  rfl

/-- The lines that open a logical command. -/
theorem runs_openWith {lvl : Level} (hfree : p.owner = none)
    (hlines : LinesAt s.cfg i p.seq.pc [.acquire, .pin .cs false, .pin .dc lvl]) :
    Runs i (reached s p) (reached s (p.openWith s lvl)) := by
  have hacquired := (Runs.refl i _).line hcur (hlines 0 _ rfl) (reached_acquire hcur hfree)
  have hselected := hacquired.line hcur (hlines 1 _ rfl) (reached_pin hcur .cs false)
  exact hselected.line hcur (hlines 2 _ rfl) (reached_pin hcur .dc lvl)

/-- The lines of a channel request after a failed transfer (40_channel.md R123, R124, R129, R130). -/
theorem runs_endFailed {what : LogWhat} (howner : p.owner = some s.cur) (hok : p.seq.ok = false)
    (hlines : LinesAt s.cfg i p.seq.pc [.pin .cs true, .releaseCmd, .logXfer what, .respondSent]) :
    Runs i (reached s p) (reached { s with err := s.err.logged what p.seq.sent } (p.endFailed s what)) := by
  have hraised := (Runs.refl i _).line hcur (hlines 0 _ rfl) (reached_pin hcur .cs true)
  have hreleased := hraised.line hcur (hlines 1 _ rfl) (reached_releaseCmd_failed hcur howner hok)
  have hlog := exec_line (i := i) (s := reached s ((p.drive .cs true).releaseFailed s)) (m := .logXfer what)
    (by rw [reached_seq hcur]; exact hlines 2 _ rfl) nofun
  have hlogged := hreleased.trans (.of_exec (hlog.trans (reached_logXfer hcur what)))
  exact hlogged.line (s := { s with err := s.err.logged what p.seq.sent }) hcur (hlines 3 _ rfl) (reached_respondSent hcur)

end Lines

/-! ### Transfers that fail -/

section Failures

variable {i : Instr} {s : State} {p : Progress} {m : Nat} {ok : Bool} {more : List (Nat × Bool)} (hcur : s.curOk)
  (hnext : s.env.xferIn.drop p.spent = (m, ok) :: more)
include hnext

/-- A transfer takes the next fixed outcome. -/
theorem reached_xfer_fixed (bytes : List Byte) : (reached s p).xfer bytes = ((min m bytes.length, ok), reached s
    { p with events := p.events ++ [.xfer s.cur bytes (min m bytes.length) ok], spent := p.spent + 1 }) := by
  obtain rfl : s.env.xferIn.drop (p.spent + 1) = more := by rw [← List.tail_drop, hnext]; rfl
  rw [xfer_fixed (s := reached s p) bytes hnext]
  simp only [reached, List.append_assoc]
  rfl

include hcur

theorem reached_xferOp_fails (op : Byte) (skip : Nat) (hfail : ¬(ok = true ∧ 1 ≤ m)) :
    runMicro (.xferOp op skip) (reached s p) = .next (reached s (p.failXfer s [op] m ok skip (min m 1))) := by
  have hok : xferOk [op] (min m [op].length, ok) = false := (xferOk_min [op] m ok).trans (decide_eq_false hfail)
  simp only [runMicro, microXferOp, reached_xfer_fixed hnext, reached_seq hcur, reached_setSeq hcur, hok, Progress.failXfer]
  rfl

theorem reached_xferChunk_fails (src : Payload) (k skip : Nat)
    (hfail : ¬(ok = true ∧ (payloadChunk s.cfg s.fb src k).length ≤ m)) :
    runMicro (.xferChunk src k skip) (reached s p) = .next (reached s
      (p.failXfer s (payloadChunk s.cfg s.fb src k) m ok skip
        (p.seq.sent + min m (payloadChunk s.cfg s.fb src k).length))) := by
  have hchunk : payloadChunk (reached s p).cfg (reached s p).fb src k = payloadChunk s.cfg s.fb src k := rfl
  have hok := (xferOk_min (payloadChunk s.cfg s.fb src k) m ok).trans (decide_eq_false hfail)
  simp only [runMicro, microXferChunk, hchunk, reached_xfer_fixed hnext, reached_seq hcur, reached_setSeq hcur, hok,
    Progress.failXfer]
  rfl

end Failures

/-! ### From the first chunk to the response -/

namespace Progress

/-- The chunks up to `k`, the first to fail. -/
def failChunk (s : State) (src : Payload) (k m : Nat) (ok : Bool) (p : Progress) : Progress :=
  (p.sendChunks s src k).failXfer s (payloadChunk s.cfg s.fb src k) m ok (nchunks s.cfg (payloadLen s.cfg src) - 1 - k)
    ((p.sendChunks s src k).seq.sent + min m (payloadChunk s.cfg s.fb src k).length)

theorem failChunk_eq {s : State} {src : Payload} {k : Nat} (m : Nat) (ok : Bool) {p : Progress} (hok : p.seq.ok = true)
    (hlimit : 1 ≤ s.cfg.xferLimit) (hk : k < nchunks s.cfg (payloadLen s.cfg src)) :
    p.failChunk s src k m ok =
      { p with
        seq := { p.seq with
          pc := p.seq.pc + nchunks s.cfg (payloadLen s.cfg src),
          sent := p.seq.sent + k * s.cfg.xferLimit + min m (payloadChunk s.cfg s.fb src k).length, ok := false },
        events := p.events ++
          chunkFailEvents s.cfg s.fb s.cur src k (min m (payloadChunk s.cfg s.fb src k).length) ok,
        spent := p.spent + k + 1 } := by
  have hevents : (chunkEvents s.cfg s.fb s.cur src).take k = (List.range k).map fun k =>
      .xfer s.cur (payloadChunk s.cfg s.fb src k) (payloadChunk s.cfg s.fb src k).length true := by
    rw [chunkEvents, ← List.map_take, List.take_range, Nat.min_eq_left hk.le]
  have hpc : p.seq.pc + k + (1 + (nchunks s.cfg (payloadLen s.cfg src) - 1 - k)) =
      p.seq.pc + nchunks s.cfg (payloadLen s.cfg src) := by omega
  rw [failChunk, sendChunks_eq s src p hok, flatMap_payloadChunk_length s.fb hlimit hk]
  simp only [failXfer, chunkFailEvents, hevents, hpc, List.append_assoc]

end Progress

/-- The lines after the payload, from `PinWrite(CS, 1)` to the response. -/
theorem LinesAt.closing {c : Cfg} {i : Instr} {pc : Nat} {src : Payload} {what : LogWhat}
    (h : LinesAt c i pc (commandEnd c src what ++ [.respondSent])) :
    LinesAt c i (pc + nchunks c (payloadLen c src)) [.pin .cs true, .releaseCmd, .logXfer what, .respondSent] := by
  rw [commandEnd, List.append_assoc] at h
  rw [← dataBody_length]
  exact h.right

section Answered

variable {i : Instr} {s : State} {p : Progress} {src : Payload} {what : LogWhat} (hcur : s.curOk)
  (hlimit : 1 ≤ s.cfg.xferLimit) (howner : p.owner = some s.cur) (hok : p.seq.ok = true)
  (hlines : LinesAt s.cfg i p.seq.pc (commandEnd s.cfg src what ++ [.respondSent]))
include hcur hlimit howner hok hlines

/-- Every chunk succeeds. -/
theorem runs_answered (hgood : goodXfers s (p.spent + nchunks s.cfg (payloadLen s.cfg src))) :
    Runs i (reached s p) (reached s ((p.endCommand s src).answer s)) := by
  have hsent := runs_endCommand hcur hlimit hgood howner hok hlines.left le_rfl
  have hlast := hlines.right
  rw [commandEnd, List.length_append, dataBody_length] at hlast
  refine hsent.line hcur ?_ (reached_respondSent hcur)
  rw [Progress.endCommand_eq s src p hok hlimit]
  exact hlast 0 _ rfl

/-- Chunk `k` fails: the later ones are left out (40_channel.md R123). -/
theorem runs_failedChunk {k m : Nat} {ok : Bool} {more : List (Nat × Bool)}
    (hk : k < nchunks s.cfg (payloadLen s.cfg src)) (hgood : goodXfers s (p.spent + k))
    (hnext : s.env.xferIn.drop (p.spent + k) = (m, ok) :: more)
    (hfail : ¬(ok = true ∧ (payloadChunk s.cfg s.fb src k).length ≤ m)) :
    Runs i (reached s p) (reached { s with err := s.err.logged what (p.failChunk s src k m ok).seq.sent }
      ((p.failChunk s src k m ok).endFailed s what)) := by
  have heq := Progress.sendChunks_eq s src p hok k
  have hsent := runs_chunks hcur hlimit hgood hok hlines.left.left hk.le le_rfl
  have hline : stepAt s.cfg i (p.sendChunks s src k).seq.pc =
      some (.xferChunk src k (nchunks s.cfg (payloadLen s.cfg src) - 1 - k)) := by
    rw [heq]; exact hlines.left.left k _ (dataBody_getElem? s.cfg src hk)
  have hfailed := hsent.line hcur hline
    (reached_xferChunk_fails hcur (more := more) (by rw [heq]; exact hnext) src k _ hfail)
  have hclosing : LinesAt s.cfg i (p.failChunk s src k m ok).seq.pc
      [.pin .cs true, .releaseCmd, .logXfer what, .respondSent] := by
    rw [Progress.failChunk_eq m ok hok hlimit hk]
    exact hlines.closing
  refine hfailed.trans (runs_endFailed hcur (p := p.failChunk s src k m ok) ?_ ?_ hclosing)
  · rw [Progress.failChunk_eq m ok hok hlimit hk]; exact howner
  · rfl

end Answered

/-! ### CH_CMD and CH_DATA (40_channel.md R129, R130) -/

theorem linesAt_chCmd_parts (c : Cfg) (op : Byte) (payload : List Byte) : LinesAt c (.chCmd op payload) 0
    (commandOpening c op (.bytes payload) ++ (commandEnd c (.bytes payload) (.opcode op) ++ [.respondSent])) := by
  rw [← List.append_assoc, ← sendCommand_eq]
  exact linesAt_chCmd c op payload

theorem linesAt_chData_parts (c : Cfg) (payload : List Byte) : LinesAt c (.chData payload) 0
    (dataOpening ++ (commandEnd c (.bytes payload) .data ++ [.respondSent])) := by
  rw [← List.append_assoc, ← sendData_eq]
  exact linesAt_chData c payload

/-- CH_CMD with its opcode sent. -/
theorem openCommand_start (s : State) (op : Byte) : (Progress.start s).openCommand s op =
    { seq := { s.seq with pc := s.seq.pc + 5, sent := 1, ok := true }, owner := some s.cur,
      pins := { s.pins with cs := false, dc := true },
      events := [.lock s.cur .acq, .pin .cs false, .pin .dc false, .xfer s.cur [op] 1 true, .pin .dc true], spent := 1 } :=
  rfl

/-- The bus selected for CH_CMD's opcode or for CH_DATA's payload. -/
theorem openWith_start (s : State) (lvl : Level) : (Progress.start s).openWith s lvl =
    { seq := { s.seq with pc := s.seq.pc + 3, sent := 0, ok := true }, owner := some s.cur,
      pins := { s.pins with cs := false, dc := lvl },
      events := [.lock s.cur .acq, .pin .cs false, .pin .dc lvl], spent := 0 } := rfl

section Requests

variable {s : State} {op : Byte} {payload : List Byte} (hpc : s.seq.pc = 0)
include hpc

theorem linesAt_chCmd_payload : LinesAt s.cfg (.chCmd op payload) ((Progress.start s).openCommand s op).seq.pc
    (commandEnd s.cfg (.bytes payload) (.opcode op) ++ [.respondSent]) := by
  rw [openCommand_start, hpc]
  exact (linesAt_chCmd_parts s.cfg op payload).right

theorem linesAt_chData_payload : LinesAt s.cfg (.chData payload) ((Progress.start s).openWith s true).seq.pc
    (commandEnd s.cfg (.bytes payload) .data ++ [.respondSent]) := by
  rw [openWith_start, hpc]
  exact (linesAt_chData_parts s.cfg payload).right

variable (hcur : s.curOk) (hfree : s.busOwner = none)
include hcur hfree

/-- CH_CMD up to its opcode transfer. -/
theorem chCmd_runs_openWith : Runs (.chCmd op payload) s (reached s ((Progress.start s).openWith s false)) := by
  have hlines := (linesAt_chCmd_parts s.cfg op payload).left.left (l := [_, _, _]) (l' := [_, _])
  have hopened := runs_openWith (p := .start s) hcur hfree (by rwa [← hpc] at hlines)
  rwa [reached_start hcur] at hopened

/-- CH_CMD up to its first chunk, where the opcode transfer succeeds. -/
theorem chCmd_runs_openCommand (hlimit : 1 ≤ s.cfg.xferLimit) {n : Nat} (hgood : goodXfers s n) (hn : 0 < n) :
    Runs (.chCmd op payload) s (reached s ((Progress.start s).openCommand s op)) := by
  have hlines := (linesAt_chCmd_parts s.cfg op payload).left
  rw [← hpc] at hlines
  have hopened : Runs (.chCmd op payload) s _ := chCmd_runs_openWith hpc hcur hfree
  have hop := hopened.line hcur (hlines 3 _ rfl) (reached_xferOp hcur hlimit hgood op _ hn)
  exact hop.line hcur (hlines 4 _ rfl) (reached_pin hcur .dc true)

/-- CH_DATA up to its first chunk. -/
theorem chData_runs_openWith : Runs (.chData payload) s (reached s ((Progress.start s).openWith s true)) := by
  have hlines := (linesAt_chData_parts s.cfg payload).left
  have hopened := runs_openWith (p := .start s) hcur hfree (by rwa [← hpc] at hlines)
  rwa [reached_start hcur] at hopened

end Requests

/-- Settles O27: the opening lines, the chunks, and the response. -/
theorem channelRequestsComplete : Obligations.ChannelRequestsComplete := by
  intro payload s hlegal hcur hpc hfree
  have hlimit := xferLimit_pos hlegal
  dsimp only
  refine ⟨fun op hgood => ?_, fun hgood => ?_⟩
  · rw [countP_commandEvents] at hgood ⊢
    have hopened := chCmd_runs_openCommand (op := op) (payload := payload) hpc hcur hfree hlimit hgood (by omega)
    obtain ⟨k, hrun⟩ := hopened.trans (runs_answered hcur hlimit rfl rfl (linesAt_chCmd_payload hpc) hgood)
    refine ⟨k, sentWord (1 + payload.length), sentWord_toNat _, hrun.trans ?_⟩
    rw [Progress.endCommand_eq _ _ _ rfl hlimit, openCommand_start]
    simp [reached, Progress.answer, commandEvents, hfree, payloadLen]
  · rw [countP_dataEvents] at hgood ⊢
    have hopened := chData_runs_openWith (payload := payload) hpc hcur hfree
    obtain ⟨k, hrun⟩ := hopened.trans (runs_answered hcur hlimit rfl rfl (linesAt_chData_payload hpc)
      (by rwa [openWith_start, Nat.zero_add]))
    refine ⟨k, sentWord payload.length, sentWord_toNat _, hrun.trans ?_⟩
    rw [Progress.endCommand_eq _ _ _ rfl hlimit, openWith_start]
    simp [reached, Progress.answer, dataEvents, hfree, payloadLen]

/-- The environment after `k` fixed outcomes and one more. -/
theorem spent_of_drop {e : Env} {k : Nat} {r : Nat × Bool} {more : List (Nat × Bool)} (h : e.xferIn.drop k = r :: more) :
    e.spent (k + 1) 0 = { e with xferIn := more } := by
  rw [Env.spent, ← List.tail_drop, h]
  rfl

/-- CH_CMD with its opcode transfer failed. -/
theorem failOpcode_start (s : State) (op : Byte) (m : Nat) (ok : Bool) (skip : Nat) :
    ((Progress.start s).openWith s false).failXfer s [op] m ok skip (min m 1) =
      { seq := { s.seq with pc := s.seq.pc + 3 + (1 + skip), sent := min m 1, ok := false }, owner := some s.cur,
        pins := { s.pins with cs := false, dc := false },
        events := [.lock s.cur .acq, .pin .cs false, .pin .dc false, .xfer s.cur [op] (min m 1) ok], spent := 1 } := rfl

/-- CH_CMD whose opcode transfer fails: its payload is left out (40_channel.md R124). -/
theorem chCmd_runs_failedOpcode {s : State} (hpc : s.seq.pc = 0) (hcur : s.curOk) (hfree : s.busOwner = none) (op : Byte)
    (payload : List Byte) {m : Nat} {ok : Bool} {more : List (Nat × Bool)} (hin : s.env.xferIn = (m, ok) :: more)
    (hfail : ¬(ok = true ∧ 1 ≤ m)) :
    let p := ((Progress.start s).openWith s false).failXfer s [op] m ok (1 + nchunks s.cfg payload.length) (min m 1)
    Runs (.chCmd op payload) s
      (reached { s with err := s.err.logged (.opcode op) (min m 1) } (p.endFailed s (.opcode op))) := by
  intro p
  have hlines := linesAt_chCmd_parts s.cfg op payload
  have hopened : Runs (.chCmd op payload) s _ := chCmd_runs_openWith hpc hcur hfree
  have hfailed := hopened.line hcur (hlines.left.at (k := 3) rfl (by rw [openWith_start, hpc]))
    (reached_xferOp_fails (p := (Progress.start s).openWith s false) hcur hin op (1 + nchunks s.cfg payload.length) hfail)
  have hend : p.seq.pc = 0 + 5 + nchunks s.cfg payload.length := by
    show s.seq.pc + 3 + (1 + (1 + nchunks s.cfg payload.length)) = _
    omega
  exact hfailed.trans (runs_endFailed hcur (p := p) rfl rfl (hend ▸ hlines.right.closing))

/-- Settles O28: the opcode transfer fails, and the lines after the payload follow it. -/
theorem opcodeFailureRun : Obligations.OpcodeFailureRun := by
  intro op payload s m ok more hcur hpc hfree hin hfail
  obtain ⟨k, hrun⟩ := chCmd_runs_failedOpcode hpc hcur hfree op payload hin hfail
  have hword : sentWord (min m 1) = BitVec.ofNat 32 (min m 1) := sentWord_of_lt _ (by omega)
  have henv : s.env.spent 1 0 = { s.env with xferIn := more } := spent_of_drop (k := 0) hin
  refine ⟨k, hrun.trans ?_⟩
  rw [Progress.endFailed_eq _ _ _ rfl, failOpcode_start]
  simp only [reached, hfree, hword, henv, List.append_assoc]
  rfl

/-- Settles O29: the lines up to chunk `k`, its failed transfer, and the lines after the payload. -/
theorem chunkFailureRun : Obligations.ChunkFailureRun := by
  intro payload s k m ok more hlegal hcur hpc hfree hk
  have hlimit := xferLimit_pos hlegal
  dsimp only
  refine fun hfail => ⟨?_, ?_⟩
  · rintro op _ rfl hgood hnext
    have hopened := chCmd_runs_openCommand (op := op) (payload := payload) hpc hcur hfree hlimit hgood (by omega)
    obtain ⟨j, hrun⟩ := hopened.trans
      (runs_failedChunk hcur hlimit rfl rfl (linesAt_chCmd_payload hpc) hk hgood hnext hfail)
    refine ⟨j, sentWord _, sentWord_toNat _, hrun.trans ?_⟩
    rw [Progress.endFailed_eq _ _ _ rfl, Progress.failChunk_eq m ok rfl hlimit hk, openCommand_start]
    simp only [reached, hfree, spent_of_drop hnext, List.append_assoc]
    rfl
  · rintro _ rfl hgood hnext
    have hspent : ((Progress.start s).openWith s true).spent + k = k := Nat.zero_add k
    have hopened := chData_runs_openWith (payload := payload) hpc hcur hfree
    obtain ⟨j, hrun⟩ := hopened.trans (runs_failedChunk hcur hlimit rfl rfl (linesAt_chData_payload hpc) hk
      (by rwa [hspent]) (by rwa [hspent]) hfail)
    refine ⟨j, sentWord _, sentWord_toNat _, hrun.trans ?_⟩
    rw [Progress.endFailed_eq _ _ _ rfl, Progress.failChunk_eq m ok rfl hlimit hk, openWith_start]
    simp only [reached, hfree, Nat.zero_add, spent_of_drop hnext, List.append_assoc]
    rfl

/-! ## What the channel leaves as it was (O57) -/

/-- The lines of SEND_COMMAND and SEND_DATA, and the last lines of the instructions made of one. -/
def InChannel : Micro → Prop
  | .acquire | .releaseCmd | .xferOp _ _ | .xferChunk _ _ _ | .logXfer _ | .respondSent | .ret => True
  | .pin pin _ => pin ≠ .rst
  | _ => False

theorem inChannel_commandEnd (c : Cfg) (src : Payload) (what : LogWhat) : ∀ m ∈ commandEnd c src what, InChannel m := by
  refine List.forall_mem_append.mpr ⟨fun m hm => ?_, by simp [InChannel]⟩
  obtain ⟨k, -, rfl⟩ := List.mem_map.mp hm
  trivial

theorem inChannel_sendCommand (c : Cfg) (op : Byte) (src : Payload) : ∀ m ∈ sendCommand c op src, InChannel m := by
  rw [sendCommand_eq]
  exact List.forall_mem_append.mpr ⟨by simp [commandOpening, InChannel], inChannel_commandEnd c src _⟩

theorem inChannel_sendData (c : Cfg) (src : Payload) : ∀ m ∈ sendData c src, InChannel m := by
  rw [sendData_eq]
  exact List.forall_mem_append.mpr ⟨by simp [dataOpening, InChannel], inChannel_commandEnd c src _⟩

/-- CH_CMD, CH_DATA and the wire commands. -/
def IsChannel (i : Instr) : Prop :=
  (wireCommand i).isSome = true ∨ (∃ op payload, i = .chCmd op payload) ∨ ∃ payload, i = .chData payload

theorem inChannel_of_stepAt {c : Cfg} {i : Instr} {pc : Nat} {m : Micro} (hi : IsChannel i)
    (hm : stepAt c i pc = some m) : InChannel m := by
  have ends {l : List Micro} {e : Micro} (hl : ∀ m ∈ l, InChannel m) (he : InChannel e) (hm : m ∈ l ++ [e]) :
      InChannel m :=
    (List.mem_append.mp hm).elim (hl m) fun h => List.mem_singleton.mp h ▸ he
  obtain hwire | ⟨op, payload, rfl⟩ | ⟨payload, rfl⟩ := hi
  · obtain ⟨⟨op, src⟩, hwire⟩ := Option.isSome_iff_exists.mp hwire
    rw [stepAt_wireCommand hwire] at hm
    exact ends (e := .ret) (inChannel_sendCommand c op src) trivial (List.mem_of_getElem? hm)
  · exact ends (e := .respondSent) (inChannel_sendCommand c op _) trivial (List.mem_of_getElem? hm)
  · exact ends (e := .respondSent) (inChannel_sendData c _) trivial (List.mem_of_getElem? hm)

/-- All that the channel can do in one step: nothing, or a change of the running port's sequencer, the bus lock, CS and DC, the
error registers, the trace and the transfer outcomes. -/
inductive ChannelStep (s : State) : State → Prop
  | held : ChannelStep s s
  | moved {q : Machine.Seq} {owner : Option Nat} {pins : Pins} {err : ErrRegs} {trace : List Event} {env : Env}
      (hrst : pins.rst = s.pins.rst) (hsched : env.sched = s.env.sched) (hbusy : env.busyIn = s.env.busyIn) :
      ChannelStep s
        { s with
          ports := s.portsWithSeq q, busOwner := owner, pins := pins, err := err, trace := trace, env := env }

theorem runMicro_channelStep {m : Micro} {s t : State} (hm : InChannel m) (h : runMicro m s = .next t) :
    ChannelStep s t := by
  have hnext := runMicro_next m s t h
  cases m with
  | acquire =>
    obtain ⟨-, rfl⟩ | ⟨-, rfl⟩ := hnext
    · exact .moved rfl rfl rfl
    · exact .held
  | releaseCmd => obtain ⟨-, rfl⟩ := hnext; exact .moved rfl rfl rfl
  | xferOp _ _ | xferChunk _ _ _ =>
    obtain ⟨_, _, _, -, hsched, hbusy, rfl⟩ := hnext
    exact .moved rfl hsched hbusy
  | pin pin lvl =>
    cases hnext
    refine .moved ?_ rfl rfl
    cases pin with
    | rst => exact absurd rfl hm
    | cs | dc => rfl
  | logXfer _ | respondSent | ret => cases hnext; exact .moved rfl rfl rfl
  | release | delay _ | sampleBusy | pollDelay | entry _ | exit _ | startRefresh | openWindow | closeWindow | drawStart _
  | drawPixel _ _ | drawEnd => exact hm.elim

theorem exec_channelStep {i : Instr} {s t : State} (hi : IsChannel i) (h : exec i s = .next t) : ChannelStep s t := by
  rcases exec_cases i s with ⟨m, hm, hexec⟩ | ⟨_, _, rfl, -⟩ | ⟨rfl, -⟩ | ⟨_, _, _, rfl, -⟩ | ⟨_, _, rfl, -⟩ | ⟨rfl, -⟩ |
    ⟨-, hexec⟩
  · exact runMicro_channelStep (inChannel_of_stepAt hi hm) (hexec.symm.trans h)
  case inr.inr.inr.inr.inr.inr => cases hexec.symm.trans h
  all_goals simp [IsChannel, wireCommand] at hi

/-- A new sequencer leaves the rest of the running port's record. -/
theorem setSeq_bind_inbox (s : State) (q : Machine.Seq) :
    (s.setSeq q).port.bind = s.port.bind ∧ (s.setSeq q).port.inbox = s.port.inbox := by
  by_cases hcur : s.curOk
  · rw [State.setSeq, setPort_port s _ hcur]
    exact ⟨rfl, rfl⟩
  · have hports : (s.setSeq q).ports = s.ports := List.set_eq_of_length_le (Nat.le_of_not_lt hcur)
    rw [State.port, State.portAt, hports]
    exact ⟨rfl, rfl⟩

/-- Settles O57: every line is one of the channel's, and it changes what `ChannelStep` says. -/
theorem channelFrame : Obligations.ChannelFrame := by
  intro i s t hi h
  cases exec_channelStep hi h with
  | held => simp
  | @moved q _ _ _ _ _ hrst hsched hbusy =>
    obtain ⟨hbind, hinbox⟩ := setSeq_bind_inbox s q
    exact ⟨fun _ _ => rfl, rfl, rfl, rfl, rfl, rfl, hrst, rfl, rfl, rfl, hsched, hbusy, hbind, hinbox,
      fun p hp => setSeq_portAt_other s q p hp⟩

end Sys2Proof.Proofs
end

section
/-! PROOFS. The family of spec/41_protocol.md: STATUS (O43), ENTRY and EXIT (O32), the reset pulse and BUSY_WAIT (O33, O34), the
whole runs of the protocol requests (O35 to O37, O39 to O42), and what the protocol and the framebuffer requests leave as it
was (O58, O59). -/

namespace Sys2Proof.Proofs

open Sys2Proof.Machine Sys2Proof.Laws

/-! ## STATUS (41_protocol.md R168) -/

/-- Two fields side by side, as a number. -/
theorem toNat_fields {m n : Nat} (x : BitVec m) (y : BitVec n) : (x ++ y).toNat = x.toNat * 2 ^ n + y.toNat := by
  rw [BitVec.toNat_append, ← Nat.shiftLeft_add_eq_or_of_lt y.isLt, Nat.shiftLeft_eq]

/-- Word 0 of the status record is its fields, each at its own power of two (10_state.md R40). -/
theorem statusWord0_toNat (s : State) : (statusWord0 s).toNat = (dstateCode s.dstate).toNat + s.err.xferErr.toNat * 2 ^ 3 +
    s.seqErr.toNat * 2 ^ 4 + s.fb.race.toNat * 2 ^ 5 + s.busOwner.isSome.toNat * 2 ^ 6 + s.fsmOwner.isSome.toNat * 2 ^ 7 +
    s.err.lastOp.toNat * 2 ^ 8 := by
  simp only [statusWord0, toNat_fields, BitVec.toNat_ofBool, BitVec.ofNat_eq_ofNat, BitVec.toNat_ofNat]
  omega

/-- Settles O43: word 0 by its fields, and the code of each DSTATE. -/
theorem statusReportsRecord : Obligations.StatusReportsRecord := by
  intro s
  refine ⟨statusWord0 s, Seq.idle, rfl, rfl, ?_⟩
  rw [statusWord0_toNat]
  generalize s.dstate = d
  cases d <;> rfl

/-! ## What ENTRY and EXIT do (41_protocol.md R151, R152, R153) -/

/-- The row of R151's table that a protocol request follows. -/
def protoOf : Instr → Proto
  | .init => .init
  | .sleep => .sleep
  | _ => .display

/-- A protocol request begins with its ENTRY and ends with its EXIT. -/
theorem stepList_ends {i : Instr} (c : Cfg) (h : isProtocol i = true) :
    ∃ l, stepList c i = .entry (protoOf i) :: l ++ [.exit (protoOf i)] := by
  cases i with
  | init | display _ _ | displayFb | clear | sleep => exact ⟨_, rfl⟩
  | _ => cases h

theorem linesAt_protocol {i : Instr} (c : Cfg) (h : isProtocol i = true) : LinesAt c i 0 (stepList c i) :=
  .of_stepAt (stepAt_protocol h)

/-- A buffer of a DISPLAY is longer than a plane: the request never reaches its ENTRY (60_exceptions.md R264). -/
def TooLong (c : Cfg) (i : Instr) : Prop := ∃ b h, i = .display b h ∧ tooLong c b h = true

theorem not_tooLong_display {c : Cfg} {b h : List Byte} (hb : b.length ≤ c.planeSize) (hh : h.length ≤ c.planeSize) :
    ¬TooLong c (.display b h) := by
  rintro ⟨b', h', heq, hlong⟩
  cases heq
  simp only [tooLong, Bool.or_eq_true, decide_eq_true_eq] at hlong
  omega

/-- Any line but the ENTRY of a DISPLAY that is too long. -/
theorem exec_of_not_tooLong {i : Instr} {s : State} {m : Micro} (hm : stepAt s.cfg i s.seq.pc = some m)
    (hlong : ¬TooLong s.cfg i) : exec i s = runMicro m s :=
  exec_of_stepAt i s m hm fun b h hi _ => Bool.eq_false_iff.mpr fun ht => hlong ⟨b, h, hi, ht⟩

theorem exec_exit_line {i : Instr} {s : State} {k : Proto} (hm : stepAt s.cfg i s.seq.pc = some (.exit k))
    (howner : s.fsmOwner = some s.cur) : exec i s = .next
      { s with
        fsmOwner := none, dstate := if s.seq.sq then s.dstate else endState k, ports := s.portsWithSeq Seq.idle,
        trace := s.trace ++ [.resp s.cur { code := .ok, xf := s.seq.xf, sq := s.seq.sq, data := .empty }] } :=
  (exec_line hm nofun).trans (protocolExit_owner k s howner)

/-- ENTRY with the FSM free, allowed or not. -/
theorem exec_entry_line {i : Instr} {s : State} {k : Proto} (hm : stepAt s.cfg i s.seq.pc = some (.entry k))
    (hlong : ¬TooLong s.cfg i) (hfree : s.fsmOwner = none) :
    exec i s = .next
      { s with
        fsmOwner := some s.cur,
        dstate := if allowedFrom k s.dstate then entryState k s.dstate else s.dstate,
        seqErr := s.seqErr || !allowedFrom k s.dstate,
        ports := s.portsWithSeq { s.seq with pc := s.seq.pc + 1, sq := s.seq.sq || !allowedFrom k s.dstate } } := by
  rw [exec_of_not_tooLong hm hlong]
  cases hallowed : allowedFrom k s.dstate with
  | true =>
    refine (protocolEntry_allowed k s hfree hallowed).trans ?_
    rw [Bool.not_true, Bool.or_false, Bool.or_false]
    rfl
  | false =>
    refine (protocolEntry_refused k s hfree hallowed).trans ?_
    rw [Bool.not_false, Bool.or_true, Bool.or_true]
    rfl

/-- Settles O32: ENTRY is the first line of a protocol request and EXIT its last. -/
theorem entryAndExitLines : Obligations.EntryAndExitLines := by
  intro i k s hkind
  obtain ⟨hproto, rfl, hlong⟩ : isProtocol i = true ∧ k = protoOf i ∧ ¬TooLong s.cfg i := by
    obtain ⟨rfl, rfl⟩ | ⟨b, h, rfl, rfl, hb, hh⟩ | ⟨rfl, rfl⟩ | ⟨rfl, rfl⟩ | ⟨rfl, rfl⟩ := hkind
    · exact ⟨rfl, rfl, nofun⟩
    · exact ⟨rfl, rfl, not_tooLong_display hb hh⟩
    · exact ⟨rfl, rfl, nofun⟩
    · exact ⟨rfl, rfl, nofun⟩
    · exact ⟨rfl, rfl, nofun⟩
  obtain ⟨l, hlist⟩ := stepList_ends s.cfg hproto
  have hlines := hlist ▸ linesAt_protocol s.cfg hproto
  have hentry (hpc : s.seq.pc = 0) : stepAt s.cfg i s.seq.pc = some (.entry (protoOf i)) := hlines.at (k := 0) rfl hpc
  intro q allowed entered ended
  have hallowed : allowedFrom (protoOf i) s.dstate = true ↔ allowed := by
    cases hk : protoOf i <;> simp [allowed, hk, allowedFrom]
  have hentered : entryState (protoOf i) s.dstate = entered := by
    cases hk : protoOf i <;> simp [entered, hk, entryState]
  have hended : endState (protoOf i) = ended := by
    cases hk : protoOf i <;> simp [ended, hk, endState]
  refine ⟨fun hpc hfree ha => ?_, fun hpc hfree ha => ?_, fun o hpc hheld => ?_, fun hpc howner => ?_⟩
  · rw [exec_entry_line (hentry hpc) hlong hfree, hallowed.mpr ha, hentered, hpc]
    simp [q]
  · rw [exec_entry_line (hentry hpc) hlong hfree, Bool.eq_false_iff.mpr (mt hallowed.mp ha), hpc]
    simp [q]
  · rw [exec_of_not_tooLong (hentry hpc) hlong]
    exact protocolEntry_held _ s o hheld
  · rw [exec_exit_line (hlines.last (by rw [hlist] at hpc; simpa using hpc)) howner, hended]

/-! ## The events of a command and of a wait, counted -/

/-- The events of a SEND_COMMAND that are no transfers. -/
def framingEvents (p : Nat) : List Event :=
  [.lock p .acq, .pin .cs false, .pin .dc false, .pin .dc true, .pin .cs true, .lock p .rel]

/-- A SEND_COMMAND's transfers count for nothing in a kind of event that has none. -/
theorem countP_commandEvents_of_no_xfer {kind : Event → Bool} (h : ∀ p bytes n ok, kind (.xfer p bytes n ok) = false)
    (c : Cfg) (f : FrameBuf) (p : Nat) (op : Byte) (src : Payload) :
    (commandEvents c f p op src).countP kind = (framingEvents p).countP kind := by
  have hchunks : (chunkEvents c f p src).countP kind = 0 := by
    simp [chunkEvents, List.countP_map, Function.comp_def, h]
  simp [commandEvents, framingEvents, hchunks, List.countP_cons, h]

/-- A count over INIT is the pulse's and each row's. -/
theorem countP_initEvents (kind : Event → Bool) (c : Cfg) (f : FrameBuf) (p : Nat) : (initEvents c f p).countP kind =
    (pulseEvents p).countP kind + ((initRows c).map fun r => (commandEvents c f p r.1 (.bytes r.2.1)).countP kind +
      if r.2.2 then (waitEvents c.busyReady 0).countP kind else 0).sum := by
  rw [initEvents, List.countP_append, List.countP_flatMap]
  congr 3
  funext r
  rw [Function.comp_apply, List.countP_append]
  split <;> rfl

/-- INIT has 14 commands and 4 waits. -/
theorem countP_initEvents_of_no_xfer {kind : Event → Bool} (h : ∀ p bytes n ok, kind (.xfer p bytes n ok) = false)
    (c : Cfg) (f : FrameBuf) (p : Nat) : (initEvents c f p).countP kind =
      (pulseEvents p).countP kind + 14 * (framingEvents p).countP kind + 4 * (waitEvents c.busyReady 0).countP kind := by
  rw [countP_initEvents]
  simp only [countP_commandEvents_of_no_xfer h, initRows, List.map_cons, List.map_nil, List.sum_cons, List.sum_nil, if_true,
    Bool.false_eq_true, if_false]
  omega

/-- Settles O36: the pulse, 14 commands and 4 waits, by kind of event. -/
theorem initEventCounts : Obligations.InitEventCounts := by
  intro c f p
  have hcount {kind : Event → Bool} (h : ∀ p bytes n ok, kind (.xfer p bytes n ok) = false) (pulse frame wait : Nat)
      (hpulse : (pulseEvents p).countP kind = pulse) (hframe : (framingEvents p).countP kind = frame)
      (hwait : (waitEvents c.busyReady 0).countP kind = wait) :
      (initEvents c f p).countP kind = pulse + 14 * frame + 4 * wait := by
    rw [countP_initEvents_of_no_xfer h, hpulse, hframe, hwait]
  have hempty : nchunks c 0 = 0 := by rw [nchunks, ceilDiv, Nat.div_eq_zero_iff]; omega
  have hpulse : (pulseEvents p).countP isXfer = 0 := rfl
  have hwait : (waitEvents c.busyReady 0).countP isXfer = 0 := rfl
  dsimp only
  refine ⟨hcount (fun _ _ _ _ => rfl) 2 2 0 rfl rfl rfl, hcount (fun _ _ _ _ => rfl) 3 4 0 rfl rfl rfl,
    hcount (fun _ _ _ _ => rfl) 0 0 1 rfl rfl rfl, hcount (fun _ _ _ _ => rfl) 3 0 1 rfl rfl rfl, ?_⟩
  simp only [countP_initEvents, hpulse, countP_commandEvents, hwait, hempty, initRows, List.map_cons, List.map_nil,
    List.sum_cons, List.sum_nil, payloadLen, List.length_nil, if_true, Bool.false_eq_true, if_false]
  ring

/-! ## What the protocol requests leave as it was (O58) -/

/-- The lines of a protocol request other than the reset pulse's and the upload window's: those of logical commands, ENTRY,
EXIT, REFRESH's first, delays and waits. -/
def CommonLine : Micro → Prop
  | .entry _ | .exit _ | .startRefresh | .delay _ | .sampleBusy | .pollDelay => True
  | m => InChannel m

theorem CommonLine.of_inChannel {m : Micro} (h : InChannel m) : CommonLine m := by
  cases m with
  | entry _ | exit _ | startRefresh | delay _ | sampleBusy | pollDelay => trivial
  | acquire | release | releaseCmd | pin _ _ | xferOp _ _ | xferChunk _ _ _ | logXfer _ | openWindow | closeWindow
  | respondSent | ret | drawStart _ | drawPixel _ _ | drawEnd => exact h

/-- The lines that instruction `i` may have if it is a protocol request: only INIT drives RST and has the pulse's release, only
DISPLAY_FB has the upload window's lines (41_protocol.md R154, R165). -/
def ProtocolLine (i : Instr) (m : Micro) : Prop :=
  CommonLine m ∨ (i = .init ∧ (m = .release ∨ ∃ lvl, m = .pin .rst lvl)) ∨
    (i = .displayFb ∧ (m = .openWindow ∨ m = .closeWindow))

theorem protocolLine_resetPulse : ∀ m ∈ resetPulse, ProtocolLine .init m := by
  simp [resetPulse, ProtocolLine, CommonLine, InChannel]

theorem commonLine_sendCommand (c : Cfg) (op : Byte) (src : Payload) : ∀ m ∈ sendCommand c op src, CommonLine m :=
  fun m hm => .of_inChannel (inChannel_sendCommand c op src m hm)

theorem commonLine_busyWait : ∀ m ∈ busyWait, CommonLine m := by simp [busyWait, CommonLine]

theorem commonLine_displayParts (c : Cfg) (srcB srcH : Payload) : ∀ l ∈ displayParts c srcB srcH, ∀ m ∈ l, CommonLine m := by
  simp only [displayParts, List.forall_mem_cons]
  exact ⟨⟨trivial, nofun⟩, commonLine_sendCommand _ _ _, commonLine_sendCommand _ _ _, commonLine_sendCommand _ _ _,
    ⟨trivial, nofun⟩, commonLine_sendCommand _ _ _, commonLine_sendCommand _ _ _, ⟨trivial, nofun⟩, commonLine_busyWait,
    ⟨trivial, nofun⟩, nofun⟩

theorem commonLine_displaySteps (c : Cfg) (b h : List Byte) : ∀ m ∈ displaySteps c b h, CommonLine m := by
  rw [← flatten_displayParts]
  exact List.forall_mem_flatten.mpr (commonLine_displayParts c _ _)

/-- DISPLAY_FB has the parts of a DISPLAY, and its window. -/
theorem mem_displayFbParts {c : Cfg} {l : List Micro} (h : l ∈ displayFbParts c) :
    l ∈ displayParts c (.plane .black) (.plane .hl) ∨ l = [.openWindow] ∨ l = [.closeWindow] := by
  simp only [displayFbParts, displayParts, List.mem_cons] at h ⊢
  tauto

theorem commonLine_rowSteps (c : Cfg) (r : Byte × List Byte × Bool) : ∀ m ∈ rowSteps c r, CommonLine m := by
  refine List.forall_mem_append.mpr ⟨commonLine_sendCommand _ _ _, ?_⟩
  split
  · exact commonLine_busyWait
  · exact nofun

theorem protocolLine_of_stepAt {c : Cfg} {i : Instr} {pc : Nat} {m : Micro} (hproto : isProtocol i = true)
    (hm : stepAt c i pc = some m) : ProtocolLine i m := by
  rw [stepAt_protocol hproto] at hm
  have hmem := List.mem_of_getElem? hm
  cases i with
  | init =>
    simp only [stepList, initSteps, initSeq_eq_rows, List.mem_append, List.mem_singleton, List.mem_flatMap] at hmem
    obtain ((rfl | hpulse) | ⟨r, -, hrow⟩) | rfl := hmem
    · exact .inl trivial
    · exact protocolLine_resetPulse m hpulse
    · exact .inl (commonLine_rowSteps c r m hrow)
    · exact .inl trivial
  | display b h => exact .inl (commonLine_displaySteps c b h m hmem)
  | clear => exact .inl (commonLine_displaySteps c [] [] m hmem)
  | displayFb =>
    rw [stepList, ← flatten_displayFbParts] at hmem
    obtain ⟨l, hl, hm⟩ := List.mem_flatten.mp hmem
    obtain hpart | rfl | rfl := mem_displayFbParts hl
    · exact .inl (commonLine_displayParts c _ _ l hpart m hm)
    · exact .inr (.inr ⟨rfl, .inl (List.mem_singleton.mp hm)⟩)
    · exact .inr (.inr ⟨rfl, .inr (List.mem_singleton.mp hm)⟩)
  | sleep =>
    simp only [stepList, sleepSteps, List.mem_append, List.mem_singleton] at hmem
    obtain (rfl | hcommand) | rfl := hmem
    · exact .inl trivial
    · exact .inl (commonLine_sendCommand c _ _ m hcommand)
    · exact .inl trivial
  | _ => cases hproto

/-- All that a protocol request can do in one step: nothing, or a change of the running port's sequencer, the locks, the pins,
DSTATE, SEQ_ERR, the error registers, the trace, the draws, and of the framebuffer only FB_RACE and the upload owner. -/
inductive ProtocolStep (i : Instr) (s : State) : State → Prop
  | held : ProtocolStep i s s
  | moved {q : Machine.Seq} {bus fsm : Option Nat} {pins : Pins} {dstate : DState} {seqErr : Bool} {err : ErrRegs}
      {trace : List Event} {env : Env} {race : Bool} {upload : Option Nat} (hrst : i ≠ .init → pins.rst = s.pins.rst)
      (hsched : env.sched = s.env.sched)
      (hfb : i ≠ .displayFb → race = s.fb.race ∧ upload = s.fb.uploadOwner) :
      ProtocolStep i s
        { s with
          ports := s.portsWithSeq q, busOwner := bus, fsmOwner := fsm, pins := pins, dstate := dstate, seqErr := seqErr,
          err := err, trace := trace, env := env, fb := { s.fb with race := race, uploadOwner := upload } }

/-- A step that leaves RST and the framebuffer. -/
theorem ProtocolStep.of_quiet {i : Instr} {s : State} {q : Machine.Seq} {bus fsm : Option Nat} {pins : Pins} {dstate : DState}
    {seqErr : Bool} {err : ErrRegs} {trace : List Event} {env : Env} (hrst : pins.rst = s.pins.rst)
    (hsched : env.sched = s.env.sched) : ProtocolStep i s
      { s with
        ports := s.portsWithSeq q, busOwner := bus, fsmOwner := fsm, pins := pins, dstate := dstate, seqErr := seqErr,
        err := err, trace := trace, env := env } :=
  .moved (race := s.fb.race) (upload := s.fb.uploadOwner) (fun _ => hrst) hsched fun _ => ⟨rfl, rfl⟩

theorem ProtocolStep.of_channelStep {i : Instr} {s t : State} (h : ChannelStep s t) : ProtocolStep i s t := by
  cases h with
  | held => exact .held
  | moved hrst hsched _ => exact .of_quiet hrst hsched

theorem commonLine_protocolStep {i : Instr} {m : Micro} {s t : State} (hm : CommonLine m) (h : runMicro m s = .next t) :
    ProtocolStep i s t := by
  have hnext := runMicro_next m s t h
  cases m with
  | entry k =>
    obtain ⟨-, -, rfl⟩ | ⟨-, -, rfl⟩ | ⟨-, rfl⟩ := hnext
    · exact .of_quiet rfl rfl
    · exact .of_quiet rfl rfl
    · exact .held
  | exit k => obtain ⟨-, rfl⟩ := hnext; exact .of_quiet rfl rfl
  | sampleBusy => obtain ⟨_, _, hsched, -, rfl⟩ := hnext; exact .of_quiet rfl hsched
  | startRefresh | delay _ | pollDelay => cases hnext; exact .of_quiet rfl rfl
  | acquire | release | releaseCmd | pin _ _ | xferOp _ _ | xferChunk _ _ _ | logXfer _ | openWindow | closeWindow
  | respondSent | ret | drawStart _ | drawPixel _ _ | drawEnd => exact .of_channelStep (runMicro_channelStep (by exact hm) h)

theorem runMicro_protocolStep {i : Instr} {m : Micro} {s t : State} (hm : ProtocolLine i m) (h : runMicro m s = .next t) :
    ProtocolStep i s t := by
  have hnext := runMicro_next m s t h
  obtain hcommon | ⟨rfl, rfl | ⟨lvl, rfl⟩⟩ | ⟨rfl, rfl | rfl⟩ := hm
  · exact commonLine_protocolStep hcommon h
  · obtain ⟨-, rfl⟩ := hnext; exact .of_quiet rfl rfl
  · cases hnext
    exact .moved (race := s.fb.race) (upload := s.fb.uploadOwner) (fun hne => absurd rfl hne) rfl fun _ => ⟨rfl, rfl⟩
  · cases hnext; exact .moved (fun _ => rfl) rfl fun hne => absurd rfl hne
  · cases hnext; exact .moved (race := s.fb.race) (fun _ => rfl) rfl fun hne => absurd rfl hne

/-- Only a DISPLAY refused for its length runs no line of its list. -/
theorem exec_protocolStep {i : Instr} {s t : State} (hproto : isProtocol i = true) (h : exec i s = .next t) :
    ProtocolStep i s t := by
  rcases exec_cases i s with ⟨m, hm, hexec⟩ | ⟨_, _, rfl, -, -, hexec⟩ | ⟨rfl, -⟩ | ⟨_, _, _, rfl, -⟩ | ⟨_, _, rfl, -⟩ |
    ⟨rfl, -⟩ | ⟨-, hexec⟩
  · exact runMicro_protocolStep (protocolLine_of_stepAt hproto hm) (hexec.symm.trans h)
  · cases hexec.symm.trans h; exact .of_quiet rfl rfl
  case inr.inr.inr.inr.inr.inr => cases hexec.symm.trans h
  all_goals cases hproto

/-- Settles O58: every line is one of a protocol request's, and it changes what `ProtocolStep` says. -/
theorem protocolFrame : Obligations.ProtocolFrame := by
  intro i s t hproto h
  cases exec_protocolStep hproto h with
  | held => simp
  | @moved q _ _ _ _ _ _ _ _ _ _ hrst hsched hfb =>
    obtain ⟨hbind, hinbox⟩ := setSeq_bind_inbox s q
    refine ⟨fun p a => readByte_congr rfl rfl p a, rfl, fun hne => ?_, hrst, rfl, rfl, rfl, rfl, hsched, hbind, hinbox,
      fun p hp => setSeq_portAt_other s q p hp⟩
    obtain ⟨rfl, rfl⟩ := hfb hne
    rfl

/-! ## What the framebuffer requests and STATUS leave as it was (O59) -/

/-- All that a framebuffer request or STATUS can do in one step: the running port's record, the planes, FB_RACE and the draw owner,
FAULT, the draws, and at most a response (41_protocol.md R168, 43_framebuffer.md R231 to R236). -/
structure FramebufferStep (s t : State) : Prop where
  ports : ∃ q, t.ports = s.ports.set s.cur q
  trace : t.trace = s.trace ∨ ∃ r, t.trace = s.trace ++ [.resp s.cur r]
  upload : t.fb.uploadOwner = s.fb.uploadOwner
  others : t = { s with
    ports := t.ports, fb := t.fb, fault := t.fault, trace := t.trace, env := t.env }

/-- Every plane keeps its byte at `a`. -/
def KeepsByte (s t : State) (a : Nat) : Prop := ∀ p, t.fb.readByte p a = s.fb.readByte p a

theorem keepsByte_of_cells {s t : State} (hblack : t.fb.black = s.fb.black) (hhl : t.fb.hl = s.fb.hl) (a : Nat) :
    KeepsByte s t a := fun p => readByte_congr hblack hhl p a

theorem execStatus_step {s t : State} (h : execStatus s = .next t) : FramebufferStep s t ∧ ∀ a, KeepsByte s t a := by
  cases h
  exact ⟨⟨⟨_, rfl⟩, .inr ⟨_, rfl⟩, rfl, rfl⟩, keepsByte_of_cells rfl rfl⟩

theorem execFbSet_step {x y : BitVec 12} {role : Role} {s t : State} (h : execFbSet x y role s = .next t) :
    FramebufferStep s t ∧ ∀ a, a ≠ pixelIndex s.cfg x.toNat y.toNat → KeepsByte s t a := by
  rw [execFbSet_eq, raceOnWrite_eq] at h
  cases h
  by_cases hin : inBounds s.cfg x.toNat y.toNat = true
  · simp only [if_pos hin]
    exact ⟨⟨⟨_, rfl⟩, .inr ⟨_, rfl⟩, writePixel_uploadOwner _ _ _ _ _, rfl⟩, fun a ha p =>
      (readByte_writePixel_other _ s.cfg _ _ role p a ha).trans (readByte_congr rfl rfl p a)⟩
  · simp only [if_neg hin]
    exact ⟨⟨⟨_, rfl⟩, .inr ⟨_, rfl⟩, rfl, rfl⟩, fun a _ => keepsByte_of_cells rfl rfl a⟩

theorem execFbGet_step {x y : BitVec 12} {s t : State} (h : execFbGet x y s = .next t) :
    FramebufferStep s t ∧ ∀ a, KeepsByte s t a := by
  obtain ⟨-, _, -, rfl⟩ | ⟨-, -, rfl⟩ | ⟨-, _, rfl⟩ := execFbGet_next x y s t h
  · exact ⟨⟨⟨_, rfl⟩, .inr ⟨_, rfl⟩, rfl, rfl⟩, keepsByte_of_cells rfl rfl⟩
  · exact ⟨⟨⟨_, rfl⟩, .inl rfl, rfl, rfl⟩, keepsByte_of_cells rfl rfl⟩
  · exact ⟨⟨⟨_, rfl⟩, .inr ⟨_, rfl⟩, rfl, rfl⟩, keepsByte_of_cells rfl rfl⟩

theorem execFbClear_step {s t : State} (h : execFbClear s = .next t) : FramebufferStep s t := by
  rw [execFbClear_eq, raceOnWrite_eq] at h
  cases h
  exact ⟨⟨_, rfl⟩, .inr ⟨_, rfl⟩, rfl, rfl⟩

/-- FB_DRAW, whose pixel step names its pixel by `pc` (43_framebuffer.md R236). -/
theorem execFbDraw_step {src : Source} {s t : State} (h : execFbDraw src s = .next t) : FramebufferStep s t ∧
    ∀ a, a ≠ pixelIndex s.cfg ((s.seq.pc - 1) % s.cfg.width) ((s.seq.pc - 1) / s.cfg.width) → KeepsByte s t a := by
  rw [execFbDraw] at h
  cases hm : drawStepAt s.cfg src s.seq.pc with
  | none => rw [hm] at h; cases h
  | some m =>
    rw [hm] at h
    have hnext := runMicro_next m s t h
    obtain ⟨-, rfl⟩ | ⟨-, -, rfl⟩ | ⟨-, rfl⟩ := drawStepAt_cases hm
    · cases hnext
      exact ⟨⟨⟨_, rfl⟩, .inl rfl, rfl, rfl⟩, fun a _ => keepsByte_of_cells rfl rfl a⟩
    · obtain ⟨role, -, rfl⟩ | ⟨-, rfl⟩ := hnext
      · exact ⟨⟨⟨_, rfl⟩, .inl rfl, writePixel_uploadOwner _ _ _ _ _, rfl⟩, fun a ha p =>
          readByte_writePixel_other s.fb s.cfg _ _ role p a ha⟩
      · exact ⟨⟨⟨_, rfl⟩, .inl rfl, rfl, rfl⟩, fun a _ => keepsByte_of_cells rfl rfl a⟩
    · cases hnext
      exact ⟨⟨⟨_, rfl⟩, .inr ⟨_, rfl⟩, rfl, rfl⟩, fun a _ => keepsByte_of_cells rfl rfl a⟩

/-- Settles O59: each request's step changes what `FramebufferStep` says, and of the planes its own pixel's byte at most. -/
theorem framebufferFrame : Obligations.FramebufferFrame := by
  intro i s t hi h
  have hstep : FramebufferStep s t ∧ (i = .status → ∀ a, KeepsByte s t a) ∧
      (∀ x y, i = .fbGet x y → ∀ a, KeepsByte s t a) ∧
      (∀ x y role, i = .fbSet x y role → ∀ a, a ≠ pixelIndex s.cfg x.toNat y.toNat → KeepsByte s t a) ∧
      ∀ src, i = .fbDraw src → ∀ a,
        a ≠ pixelIndex s.cfg ((s.seq.pc - 1) % s.cfg.width) ((s.seq.pc - 1) / s.cfg.width) → KeepsByte s t a := by
    obtain rfl | ⟨x, y, role, rfl⟩ | ⟨x, y, rfl⟩ | rfl | ⟨src, rfl⟩ := hi
    · obtain ⟨hframe, hkeeps⟩ := execStatus_step h
      exact ⟨hframe, fun _ => hkeeps, nofun, nofun, nofun⟩
    · obtain ⟨hframe, hkeeps⟩ := execFbSet_step h
      exact ⟨hframe, nofun, nofun, fun _ _ _ heq => by cases heq; exact hkeeps, nofun⟩
    · obtain ⟨hframe, hkeeps⟩ := execFbGet_step h
      exact ⟨hframe, nofun, fun _ _ _ => hkeeps, nofun, nofun⟩
    · exact ⟨execFbClear_step h, nofun, nofun, nofun, nofun⟩
    · obtain ⟨hframe, hkeeps⟩ := execFbDraw_step h
      exact ⟨hframe, nofun, nofun, nofun, fun _ heq => by cases heq; exact hkeeps⟩
  obtain ⟨⟨⟨q, hports⟩, htrace, hupload, hothers⟩, hstatus, hget, hset, hdraw⟩ := hstep
  rw [hothers]
  exact ⟨rfl, rfl, rfl, rfl, rfl, rfl, rfl, rfl, rfl, hupload, fun p hp => by
      rw [State.portAt, hports]; exact getD_set_other _ _ _ _ _ hp.symm, htrace, fun hi p a => hstatus hi a p,
      fun x y hi p a => hget x y hi a p, fun x y role hi p a ha => hset x y role hi a ha p,
      fun src hi p a ha => hdraw src hi a ha p⟩

/-! ## What a stretch of a request comes to -/

/-- The pins after the events drive them. -/
def pinsAfter (p : Pins) (es : List Event) : Pins :=
  es.foldl (fun p e => match e with | .pin pin lvl => p.drive pin lvl | _ => p) p

/-- The state `s`, with the running port's sequencer at `q` after the events `es`: the pins as these drive them, and the draws
they took used up. -/
def after (s : State) (q : Machine.Seq) (es : List Event) : State :=
  { s with
    ports := s.portsWithSeq q, pins := pinsAfter s.pins es, trace := s.trace ++ es,
    env := s.env.spent (es.countP isXfer) (es.countP isBusy) }

theorem pinsAfter_append (p : Pins) (es es' : List Event) : pinsAfter p (es ++ es') = pinsAfter (pinsAfter p es) es' :=
  List.foldl_append

theorem pinsAfter_eq_self {es : List Event} (h : ∀ e ∈ es, isPin e = false) (p : Pins) : pinsAfter p es = p := by
  induction es with
  | nil => rfl
  | cons e es ih =>
    obtain ⟨he, hes⟩ := List.forall_mem_cons.mp h
    cases e with
    | pin _ _ => cases he
    | xfer _ _ _ _ | busy _ | delay _ | lock _ _ | log _ _ _ | resp _ _ => exact ih hes

theorem after_nil {s : State} (hcur : s.curOk) : after s s.seq [] = s := reached_start hcur

theorem portsWithSeq_self {s : State} (hcur : s.curOk) : s.portsWithSeq s.seq = s.ports :=
  congrArg State.ports (after_nil hcur)

/-- A stretch that drives no pin and transfers nothing. -/
theorem after_of_no_pin_xfer {es : List Event} (hpin : ∀ e ∈ es, isPin e = false) (hxfer : es.countP isXfer = 0) (s : State)
    (q : Machine.Seq) : after s q es = { s with
      ports := s.portsWithSeq q, trace := s.trace ++ es,
      env := { s.env with busyIn := s.env.busyIn.drop (es.countP isBusy) } } := by
  rw [after, pinsAfter_eq_self hpin, hxfer]
  rfl

theorem after_curOk {s : State} (hcur : s.curOk) (q : Machine.Seq) (es : List Event) : (after s q es).curOk :=
  hcur.trans_eq List.length_set.symm

theorem after_seq {s : State} (hcur : s.curOk) (q : Machine.Seq) (es : List Event) : (after s q es).seq = q :=
  seq_of_ports (s := s) hcur rfl

/-- A sequencer set twice. -/
theorem portsWithSeq_portsWithSeq {s : State} (hcur : s.curOk) (q q' : Machine.Seq) :
    ({ s with ports := s.portsWithSeq q } : State).portsWithSeq q' = s.portsWithSeq q' := by
  have hport : ({ s with ports := s.portsWithSeq q } : State).port = { s.port with seq := q } := getD_set_self _ _ _ _ hcur
  rw [State.portsWithSeq, hport]
  exact List.set_set ..

/-- One stretch after another. -/
theorem after_append {s : State} (hcur : s.curOk) (q q' : Machine.Seq) (es es' : List Event) :
    after (after s q es) q' es' = after s q' (es ++ es') := by
  have hports : (after s q es).portsWithSeq q' = s.portsWithSeq q' := portsWithSeq_portsWithSeq hcur q q'
  rw [after, hports]
  simp only [after, pinsAfter_append, List.countP_append, List.append_assoc, Env.spent, List.drop_drop]

/-! ## Single lines, by the event each emits -/

theorem execN_one {i : Instr} {s t : State} (h : exec i s = .next t) : execN i 1 s = .next t := by rw [execN, h]; rfl

section Lines

variable {i : Instr} {s : State} (hcur : s.curOk)

/-- The line of a pin or of a delay, and its event. -/
inductive Emits : Micro → Event → Prop
  | pin (p : Pin) (lvl : Level) : Emits (.pin p lvl) (.pin p lvl)
  | delay (d : DelayName) : Emits (.delay d) (.delay d)

theorem exec_emits {m : Micro} {e : Event} (he : Emits m e) (hm : stepAt s.cfg i s.seq.pc = some m) :
    exec i s = .next (after s { s.seq with pc := s.seq.pc + 1 } [e]) := by
  cases he with
  | pin p lvl => exact exec_pin hm
  | delay d => exact exec_line hm nofun

include hcur

/-- Pins and delays, one line after the other. -/
theorem execN_emits {l : List Micro} {es : List Event} (hl : List.Forall₂ Emits l es) (hlines : LinesAt s.cfg i s.seq.pc l) :
    execN i l.length s = .next (after s { s.seq with pc := s.seq.pc + l.length } es) := by
  induction hl generalizing s with
  | nil => exact congrArg _ (after_nil hcur).symm
  | @cons m e l es he hl ih =>
    have hone := exec_emits he (hlines 0 m rfl)
    have hrest := ih (s := after s { s.seq with pc := s.seq.pc + 1 } [e]) (after_curOk hcur _ _)
      (by rw [after_seq hcur]; exact hlines.right (l := [m]))
    rw [after_seq hcur, after_append hcur] at hrest
    rw [List.length_cons, execN, hone, ← Nat.add_assoc, Nat.add_right_comm]
    exact hrest

variable {q : Machine.Seq} {es : List Event}

theorem execN_after_emits {l : List Micro} {les : List Event} (hl : List.Forall₂ Emits l les)
    (hlines : LinesAt s.cfg i q.pc l) : execN i l.length (after s q es) =
      .next (after s { q with pc := q.pc + l.length } (es ++ les)) := by
  have hrun := execN_emits (i := i) (after_curOk hcur q es) hl (by rw [after_seq hcur]; exact hlines)
  rwa [after_seq hcur, after_append hcur] at hrun

theorem exec_after_acquire (hm : stepAt s.cfg i q.pc = some .acquire) (hfree : s.busOwner = none) :
    exec i (after s q es) = .next (after { s with busOwner := some s.cur } { q with pc := q.pc + 1, sent := 0, ok := true }
      (es ++ [.lock s.cur .acq])) := by
  have hexec := exec_acquire_free (i := i) (s := after s q es) (by rw [after_seq hcur]; exact hm) hfree
  rw [after_seq hcur] at hexec
  exact hexec.trans (congrArg _ (after_append (s := { s with busOwner := some s.cur }) hcur q _ es [.lock s.cur .acq]))

theorem exec_after_release (hm : stepAt s.cfg i q.pc = some .release) (howner : s.busOwner = some s.cur) :
    exec i (after s q es) = .next (after { s with busOwner := none } { q with pc := q.pc + 1 }
      (es ++ [.lock s.cur .rel])) := by
  have hexec := (exec_line (i := i) (s := after s q es) (m := .release) (by rw [after_seq hcur]; exact hm) nofun).trans
    (releaseBus_owner 1 _ howner)
  rw [after_seq hcur] at hexec
  exact hexec.trans (congrArg _ (after_append (s := { s with busOwner := none }) hcur q _ es [.lock s.cur .rel]))

end Lines

/-! ## The reset pulse (41_protocol.md R154) -/

/-- The pins and holds of the pulse, between its `Acquire(BUS)` and its `Release(BUS)`. -/
def pulseLines : List Micro :=
  [.pin .rst true, .delay .rstH1, .pin .rst false, .delay .rstL, .pin .rst true, .delay .rstH2]

/-- What they emit. -/
def pulseHolds : List Event :=
  [.pin .rst true, .delay .rstH1, .pin .rst false, .delay .rstL, .pin .rst true, .delay .rstH2]

theorem emits_pulseLines : List.Forall₂ Emits pulseLines pulseHolds :=
  .cons (.pin ..) (.cons (.delay _) (.cons (.pin ..) (.cons (.delay _) (.cons (.pin ..) (.cons (.delay _) .nil)))))

/-- The pulse runs line by line, with the bus lock held from its first to its last. -/
theorem execN_resetPulse {i : Instr} {s : State} {q : Machine.Seq} {es : List Event} (hcur : s.curOk)
    (hfree : s.busOwner = none) (hlines : LinesAt s.cfg i q.pc resetPulse) : execN i 8 (after s q es) =
      .next (after s { q with pc := q.pc + 8, sent := 0, ok := true } (es ++ pulseEvents s.cur)) := by
  have hholds : LinesAt s.cfg i (q.pc + 1) (pulseLines ++ [.release]) := hlines.right (l := [.acquire])
  have hacquired := execN_one (exec_after_acquire (es := es) hcur (hlines 0 _ rfl) hfree)
  have hheld := execN_after_emits (s := { s with busOwner := some s.cur }) (es := es ++ [.lock s.cur .acq]) hcur
    (q := { q with pc := q.pc + 1, sent := 0, ok := true }) emits_pulseLines hholds.left
  have hreleased := execN_one (exec_after_release (s := { s with busOwner := some s.cur })
    (es := es ++ [.lock s.cur .acq] ++ pulseHolds) hcur (q := { q with pc := q.pc + 7, sent := 0, ok := true })
    (hholds.right 0 _ rfl) rfl)
  have hs : ({ s with busOwner := none } : State) = s := by rw [← hfree]
  have hrun := execN_trans i 7 1 _ _ _ (execN_trans i 1 6 _ _ _ hacquired hheld) hreleased
  rw [hrun, ← hs, List.append_assoc, List.append_assoc]
  rfl

/-- Only INIT drives RST (R154, 70_reset_and_hazards.md R295). -/
theorem init_of_drives_rst {c : Cfg} {i : Instr} {pc : Nat} {lvl : Level} (hm : stepAt c i pc = some (.pin .rst lvl)) :
    i = .init := by
  have protocol (hproto : isProtocol i = true) : i = .init := by
    obtain hcommon | ⟨hi, -⟩ | ⟨-, h | h⟩ := protocolLine_of_stepAt hproto hm
    · exact absurd rfl hcommon
    · exact hi
    · cases h
    · cases h
  have channel (hi : IsChannel i) : i = .init := absurd rfl (inChannel_of_stepAt hi hm)
  cases i with
  | init | display _ _ | displayFb | clear | sleep => exact protocol rfl
  | status | fbSet _ _ _ | fbGet _ _ | fbClear => cases hm
  | fbDraw src => rcases drawStepAt_cases hm with ⟨-, h⟩ | ⟨-, -, h⟩ | ⟨-, h⟩ <;> cases h
  | chCmd op payload => exact channel (.inr (.inl ⟨op, payload, rfl⟩))
  | chData payload => exact channel (.inr (.inr ⟨payload, rfl⟩))
  | wSwreset | wAutowriteHl _ | wAutowriteBw _ | wSoftstart _ | wGate _ | wDataEntry _ | wRamxWindow _ | wRamyWindow _
  | wBorder _ | wTempSensor _ | wUpdateCtrl2 _ | wMasterAct | wWriteBw _ | wWriteHl _ | wRamxCounter _ | wRamyCounter _
  | wDeepSleep => exact channel (.inl rfl)

/-- Settles O33, the pulse by its lines; that RST is INIT's alone by the lines each request has. -/
theorem resetPulseRun : Obligations.ResetPulseRun := by
  refine ⟨fun s hcur hpc hfree => ?_, fun c i pc lvl hm => ?_⟩
  · have hlines : LinesAt s.cfg .init s.seq.pc resetPulse := by
      rw [hpc]
      exact (linesAt_protocol s.cfg (i := .init) rfl).left.left.right
    have hrun := execN_resetPulse (q := s.seq) (es := []) hcur hfree hlines
    rw [after_nil hcur] at hrun
    exact ⟨{ s.seq with pc := s.seq.pc + 8, sent := 0, ok := true }, congrArg (· + 8) hpc, rfl, rfl, rfl, hrun⟩
  · exact init_of_drives_rst hm

/-! ## BUSY_WAIT (41_protocol.md R155 to R158) -/

/-- Every busy sample of the list begins a whole BUSY_WAIT. -/
def WaitsWhole (l : List Micro) : Prop := ∀ k, l[k]? = some .sampleBusy → busyWait <+: l.drop k

theorem waitsWhole_of_no_sample {l : List Micro} (h : Micro.sampleBusy ∉ l) : WaitsWhole l :=
  fun _ hk => absurd (List.mem_of_getElem? hk) h

theorem waitsWhole_busyWait : WaitsWhole busyWait := by
  intro k hk
  match k, hk with
  | 0, hk => exact List.prefix_rfl
  | 1, hk => cases hk
  | 2, hk => cases hk

theorem WaitsWhole.append {l l' : List Micro} (h : WaitsWhole l) (h' : WaitsWhole l') : WaitsWhole (l ++ l') := by
  intro k hk
  rcases Nat.lt_or_ge k l.length with hlt | hge
  · rw [List.getElem?_append_left hlt] at hk
    rw [List.drop_append_of_le_length hlt.le]
    exact (h k hk).trans (List.prefix_append ..)
  · obtain ⟨j, rfl⟩ := Nat.exists_eq_add_of_le hge
    rw [List.getElem?_append_right hge, Nat.add_sub_cancel_left] at hk
    rw [List.drop_length_add_append]
    exact h' j hk

theorem Body.waitsWhole {c : Cfg} {l : List Micro} (h : Body c l) : WaitsWhole l := by
  induction h with
  | command op src => exact waitsWhole_of_no_sample fun hm => inChannel_sendCommand c op src _ hm
  | data src => exact waitsWhole_of_no_sample fun hm => inChannel_sendData c src _ hm
  | wait => exact waitsWhole_busyWait
  | pulse | act | openWindow | closeWindow => exact waitsWhole_of_no_sample (by decide)
  | append _ _ ih ih' => exact ih.append ih'

theorem waitsWhole_stepList (c : Cfg) (i : Instr) : WaitsWhole (stepList c i) := by
  have line {m : Micro} (hm : Micro.sampleBusy ∉ [m]) : WaitsWhole [m] := waitsWhole_of_no_sample hm
  cases stepShape c i with
  | none _ h => rw [h]; exact waitsWhole_of_no_sample nofun
  | channel _ hl he h => rw [h]; exact hl.waitsWhole.append (line (by rcases he with rfl | rfl <;> decide))
  | init _ hl h | sleep _ hl h =>
    rw [h]
    exact (line (m := .entry _) (by decide)).append (hl.waitsWhole.append (line (by decide)))
  | display _ _ _ hl hl' h =>
    rw [h]
    exact ((line (m := .entry _) (by decide)).append hl.waitsWhole).append
      ((line (m := .startRefresh) (by decide)).append (hl'.waitsWhole.append (line (by decide))))

/-- A busy sample of an instruction begins a whole BUSY_WAIT. -/
theorem linesAt_busyWait {c : Cfg} {i : Instr} {pc : Nat} (h : stepAt c i pc = some .sampleBusy) : LinesAt c i pc busyWait := by
  have hdraw : ∀ src, i ≠ .fbDraw src := by
    rintro src rfl
    rcases drawStepAt_cases h with ⟨-, h'⟩ | ⟨-, -, h'⟩ | ⟨-, h'⟩ <;> cases h'
  rw [stepAt_eq c i pc hdraw] at h
  exact linesAt_of_prefix nofun (waitsWhole_stepList c i pc h)

/-- A busy sample takes the next fixed level, and a ready one goes past the poll delay (R155, R156). -/
theorem exec_sampleBusy {i : Instr} {s : State} (hm : stepAt s.cfg i s.seq.pc = some .sampleBusy) {lvl : Level}
    {rest : List Level} (hin : s.env.busyIn = lvl :: rest) : exec i s =
      .next (after s { s.seq with pc := s.seq.pc + if lvl = s.cfg.busyReady then 2 else 1 } [.busy lvl]) := by
  have henv : s.env.spent 0 1 = { s.env with busyIn := rest } := by rw [Env.spent, hin]; rfl
  rw [exec_line hm nofun, runMicro, microSampleBusy, drawBusy_cons s lvl rest hin]
  refine congrArg Host.Outcome.next ?_
  show _ = ({ s with env := s.env.spent 0 1, trace := _, ports := _ } : State)
  rw [henv]
  rfl

theorem exec_pollDelay {i : Instr} {s : State} (hm : stepAt s.cfg i s.seq.pc = some .pollDelay) :
    exec i s = .next (after s { s.seq with pc := s.seq.pc - 1 } [.delay .poll]) :=
  exec_line hm nofun

section Wait

variable {i : Instr} {s : State} (hcur : s.curOk) (hlines : LinesAt s.cfg i s.seq.pc busyWait)
include hcur hlines

/-- A sample that is not ready and its poll delay lead back to the sample. -/
theorem execN_poll {rest : List Level} (hin : s.env.busyIn = (!s.cfg.busyReady) :: rest) :
    execN i 2 s = .next (after s s.seq [.busy !s.cfg.busyReady, .delay .poll]) := by
  have hsampled := exec_sampleBusy (hlines 0 _ rfl) hin
  rw [if_neg (by simp)] at hsampled
  have hdelayed := exec_pollDelay (i := i) (s := after s { s.seq with pc := s.seq.pc + 1 } [.busy !s.cfg.busyReady])
    (by rw [after_seq hcur]; exact hlines 1 _ rfl)
  rw [after_seq hcur, after_append hcur] at hdelayed
  exact execN_trans i 1 1 _ _ _ (execN_one hsampled) (execN_one hdelayed)

/-- A ready sample and the settle delay end the wait. -/
theorem execN_settle {rest : List Level} (hin : s.env.busyIn = s.cfg.busyReady :: rest) :
    execN i 2 s = .next (after s { s.seq with pc := s.seq.pc + 3 } (waitEvents s.cfg.busyReady 0)) := by
  have hsampled := exec_sampleBusy (hlines 0 _ rfl) hin
  rw [if_pos rfl] at hsampled
  have hsettled := execN_after_emits (i := i) (q := { s.seq with pc := s.seq.pc + 2 }) (es := [.busy s.cfg.busyReady]) hcur
    (.cons (.delay .settle) .nil) (hlines.right (l := [_, _]) (l' := [.delay .settle]))
  exact execN_trans i 1 1 _ _ _ (execN_one hsampled) hsettled

/-- As long as no sample reads ready the port stays at the sample (R158). -/
theorem execN_polls {j : Nat} {more : List Level}
    (hin : s.env.busyIn = List.replicate j (!s.cfg.busyReady) ++ more) : execN i (2 * j) s =
      .next (after s s.seq (List.replicate j [Event.busy !s.cfg.busyReady, .delay .poll]).flatten) := by
  induction j generalizing s with
  | zero => exact congrArg _ (after_nil hcur).symm
  | succ j ih =>
    have hpolled := execN_poll hcur hlines (rest := List.replicate j (!s.cfg.busyReady) ++ more) hin
    have hrest := ih (s := after s s.seq [.busy !s.cfg.busyReady, .delay .poll]) (after_curOk hcur _ _)
      (by rw [after_seq hcur]; exact hlines) (congrArg (List.drop 1) hin)
    rw [after_seq hcur, after_append hcur] at hrest
    rw [Nat.mul_succ, Nat.add_comm]
    exact execN_trans i 2 (2 * j) _ _ _ hpolled hrest

end Wait

/-- `j` samples that are not ready, each with its poll delay. -/
def pollEvents (ready : Level) (j : Nat) : List Event := (List.replicate j [Event.busy !ready, .delay .poll]).flatten

theorem countP_pollEvents_isXfer (ready : Level) (j : Nat) : (pollEvents ready j).countP isXfer = 0 := by
  induction j with
  | zero => rfl
  | succ j ih => exact ih

theorem countP_pollEvents_isBusy (ready : Level) (j : Nat) : (pollEvents ready j).countP isBusy = j := by
  induction j with
  | zero => rfl
  | succ j ih => exact (List.countP_cons_of_pos rfl).trans (congrArg (· + 1) ih)

theorem pollEvents_not_pin (ready : Level) (j : Nat) : ∀ e ∈ pollEvents ready j, isPin e = false := by
  induction j with
  | zero => exact nofun
  | succ j ih => exact List.forall_mem_cons.mpr ⟨rfl, List.forall_mem_cons.mpr ⟨rfl, ih⟩⟩

/-- Settles O34: the samples that are not ready, then the ready one. -/
theorem busyWaitRun : Obligations.BusyWaitRun := by
  intro i s j more hcur hsample hin
  have hlines := linesAt_busyWait hsample
  have hpolls := execN_polls hcur hlines hin
  change execN i (2 * j) s = .next (after s s.seq (pollEvents s.cfg.busyReady j)) at hpolls
  have hbusy := countP_pollEvents_isBusy s.cfg.busyReady j
  have hxfer := countP_pollEvents_isXfer s.cfg.busyReady j
  have hpin := pollEvents_not_pin s.cfg.busyReady j
  have hmore : s.env.busyIn.drop j = more := by rw [hin, List.drop_left' (List.length_replicate ..)]
  refine ⟨hpolls.trans (congrArg _ ?_), ?_⟩
  · rw [after_of_no_pin_xfer hpin hxfer, hbusy, hmore, portsWithSeq_self hcur]
    rfl
  · rintro rest rfl
    have hrest : s.env.busyIn.drop (j + 1) = rest := by rw [← List.tail_drop, hmore]; rfl
    have hready : (after s s.seq (pollEvents s.cfg.busyReady j)).env.busyIn = s.cfg.busyReady :: rest := by
      rw [← hmore, ← congrArg (s.env.busyIn.drop ·) hbusy]; rfl
    have hsettled := execN_settle (after_curOk hcur _ _) (by rw [after_seq hcur]; exact hlines) hready
    rw [after_seq hcur, after_append hcur] at hsettled
    refine (execN_trans i (2 * j) 2 _ _ _ hpolls hsettled).trans (congrArg _ ?_)
    have hall : ∀ e ∈ pollEvents s.cfg.busyReady j ++ waitEvents s.cfg.busyReady 0, isPin e = false :=
      List.forall_mem_append.mpr ⟨hpin, by simp [waitEvents, isPin]⟩
    refine (after_of_no_pin_xfer hall (by rw [List.countP_append, hxfer]; rfl) s _).trans ?_
    rw [List.countP_append, hbusy, List.append_assoc, ← hrest]
    rfl

/-! ## Whole runs of the protocol requests -/

theorem goodXfers_mono {s : State} {k n : Nat} (h : goodXfers s n) (hk : k ≤ n) : goodXfers s k :=
  ⟨hk.trans h.1, fun r hr => h.2 r (List.take_subset_take_left _ hk hr)⟩

/-- A stretch between logical commands, as the runs of the commands have it. -/
theorem after_eq_reached {s : State} (hfree : s.busOwner = none) (q : Machine.Seq) (es : List Event) : after s q es =
    reached { s with env := s.env.spent 0 (es.countP isBusy) }
      { seq := q, owner := none, pins := pinsAfter s.pins es, events := es, spent := es.countP isXfer } := by
  simp only [after, reached, ← hfree]
  rfl

/-- From `u` the instruction comes to the state `s` with the events `done` behind it, its flags at `xf` and `sq`, the bus lock free
and the lines `rest` ahead; the draws fixed for the events `ahead` are those of a stretch without failures. -/
structure Reaches (i : Instr) (u s : State) (done ahead : List Event) (xf sq : Bool) (rest : List Micro) : Prop where
  curOk : s.curOk
  limit : 1 ≤ s.cfg.xferLimit
  free : s.busOwner = none
  good : goodXfers s ((done ++ ahead).countP isXfer)
  ready : readySamples s ((done ++ ahead).countP isBusy)
  run : ∃ q : Machine.Seq, q.xf = xf ∧ q.sq = sq ∧ LinesAt s.cfg i q.pc rest ∧ Runs i u (after s q done)

section Reaches

variable {i : Instr} {u s : State} {done ahead : List Event} {xf sq : Bool} {rest : List Micro}

/-- A stretch of lines that runs, and leaves the flags. -/
theorem Reaches.stretch {l : List Micro} {es : List Event} (h : Reaches i u s done (es ++ ahead) xf sq (l ++ rest))
    (hrun : ∀ q : Machine.Seq, LinesAt s.cfg i q.pc l → ∃ sent ok, Runs i (after s q done)
      (after s { q with pc := q.pc + l.length, sent := sent, ok := ok } (done ++ es))) :
    Reaches i u s (done ++ es) ahead xf sq rest := by
  obtain ⟨q, hxf, hsq, hlines, hto⟩ := h.run
  obtain ⟨sent, ok, hon⟩ := hrun q hlines.left
  exact ⟨h.curOk, h.limit, h.free, by rw [List.append_assoc]; exact h.good, by rw [List.append_assoc]; exact h.ready,
    { q with pc := q.pc + l.length, sent := sent, ok := ok }, hxf, hsq, hlines.right, hto.trans hon⟩

/-- A pin or a delay. -/
theorem Reaches.emit {m : Micro} {e : Event} (he : Emits m e) (h : Reaches i u s done (e :: ahead) xf sq (m :: rest)) :
    Reaches i u s (done ++ [e]) ahead xf sq rest :=
  Reaches.stretch (l := [m]) (es := [e]) h fun q hlines =>
    ⟨q.sent, q.ok, 1, execN_after_emits h.curOk (.cons he .nil) hlines⟩

/-- The reset pulse. -/
theorem Reaches.pulse (h : Reaches i u s done (pulseEvents s.cur ++ ahead) xf sq (resetPulse ++ rest)) :
    Reaches i u s (done ++ pulseEvents s.cur) ahead xf sq rest :=
  h.stretch fun _ hlines => ⟨0, true, 8, execN_resetPulse h.curOk h.free hlines⟩

theorem readySamples_next {s : State} {n k : Nat} (h : readySamples s n) (hk : k < n) :
    s.env.busyIn.drop k = s.cfg.busyReady :: s.env.busyIn.drop (k + 1) := by
  obtain ⟨hlen, hready⟩ := h
  have hlt : k < s.env.busyIn.length := by omega
  rw [List.drop_eq_getElem_cons hlt, hready _ (List.mem_take_iff_getElem.mpr ⟨k, by omega, rfl⟩)]

/-- A BUSY_WAIT whose first sample is ready. -/
theorem Reaches.wait (h : Reaches i u s done (waitEvents s.cfg.busyReady 0 ++ ahead) xf sq (busyWait ++ rest)) :
    Reaches i u s (done ++ waitEvents s.cfg.busyReady 0) ahead xf sq rest := by
  refine h.stretch fun q hlines => ⟨q.sent, q.ok, 2, ?_⟩
  have hnext : done.countP isBusy < (done ++ (waitEvents s.cfg.busyReady 0 ++ ahead)).countP isBusy := by
    rw [List.countP_append, List.countP_append, show (waitEvents s.cfg.busyReady 0).countP isBusy = 1 from rfl]
    omega
  have hsettled := execN_settle (after_curOk h.curOk q done) (by rw [after_seq h.curOk]; exact hlines)
    (readySamples_next h.ready hnext)
  rwa [after_seq h.curOk, after_append h.curOk] at hsettled

/-- The pins after a SEND_COMMAND that does not fail. -/
theorem pinsAfter_commandEvents (p : Pins) (c : Cfg) (f : FrameBuf) (port : Nat) (op : Byte) (src : Payload) :
    pinsAfter p (commandEvents c f port op src) = { p with cs := true, dc := true } := by
  have hchunks : ∀ e ∈ chunkEvents c f port src, isPin e = false := by simp [chunkEvents, isPin]
  rw [commandEvents, pinsAfter_append, pinsAfter_append, pinsAfter_eq_self hchunks]
  rfl

theorem countP_commandEvents_isBusy (c : Cfg) (f : FrameBuf) (p : Nat) (op : Byte) (src : Payload) :
    (commandEvents c f p op src).countP isBusy = 0 :=
  countP_commandEvents_of_no_xfer (fun _ _ _ _ => rfl) c f p op src

/-- A SEND_COMMAND that does not fail. -/
theorem Reaches.command {op : Byte} {src : Payload}
    (h : Reaches i u s done (commandEvents s.cfg s.fb s.cur op src ++ ahead) xf sq (sendCommand s.cfg op src ++ rest)) :
    Reaches i u s (done ++ commandEvents s.cfg s.fb s.cur op src) ahead xf sq rest := by
  refine h.stretch fun q hlines => ⟨1 + (payloadAll s.cfg s.fb src).length, true, ?_⟩
  have hspent : done.countP isXfer + (commandEvents s.cfg s.fb s.cur op src).countP isXfer ≤
      (done ++ (commandEvents s.cfg s.fb s.cur op src ++ ahead)).countP isXfer := by
    rw [List.countP_append, List.countP_append, ← Nat.add_assoc]
    exact Nat.le_add_right _ _
  have hrun := runs_command (s := { s with env := s.env.spent 0 (done.countP isBusy) })
    (p := { seq := q, owner := none, pins := pinsAfter s.pins done, events := done, spent := done.countP isXfer })
    h.curOk h.limit h.good rfl hlines hspent
  rw [Progress.sendCommand_eq (hlimit := by exact h.limit)] at hrun
  rw [after_eq_reached h.free, after_eq_reached h.free, List.countP_append, List.countP_append, countP_commandEvents_isBusy,
    pinsAfter_append, pinsAfter_commandEvents, sendCommand_length]
  exact hrun

/-! ### The lines that change DSTATE and the locks -/

theorem after_advance {s : State} (hcur : s.curOk) (q : Machine.Seq) (es : List Event) :
    (after s q es).advance 1 = after s { q with pc := q.pc + 1 } es := by
  have hset (t : State) (q' : Machine.Seq) : t.setSeq q' = after t q' [] := by
    rw [after, List.append_nil]; rfl
  rw [State.advance, hset, after_append hcur, after_seq hcur, List.append_nil]

/-- A line that changes the state by `g` and goes on to the next, with no event. -/
theorem Reaches.silent {m : Micro} {g : State → State} (h : Reaches i u s done ahead xf sq (m :: rest))
    (hne : m ≠ .entry .display) (hg : (g s).curOk ∧ (g s).cfg = s.cfg ∧ (g s).busOwner = s.busOwner ∧ (g s).env = s.env)
    (hafter : ∀ q, g (after s q done) = after (g s) q done)
    (hstep : ∀ t : State, t.seq.sq = sq → runMicro m t = .next ((g t).advance 1)) :
    Reaches i u (g s) done ahead xf sq rest := by
  obtain ⟨q, hxf, hsq, hlines, hto⟩ := h.run
  obtain ⟨hcur, hcfg, hbus, henv⟩ := hg
  have hseq := after_seq h.curOk q done
  have hexec := (exec_line (i := i) (s := after s q done) (by rw [hseq]; exact hlines 0 _ rfl) hne).trans
    (hstep _ (by rw [hseq, hsq]))
  rw [hafter, after_advance hcur] at hexec
  exact
    { curOk := hcur
      limit := hcfg ▸ h.limit
      free := hbus.trans h.free
      good := by rw [goodXfers, henv, hcfg]; exact h.good
      ready := by rw [readySamples, henv, hcfg]; exact h.ready
      run := ⟨{ q with pc := q.pc + 1 }, hxf, hsq, hcfg ▸ hlines.right (l := [m]), hto.trans (.of_exec hexec)⟩ }

/-- REFRESH's first line (R163). -/
theorem Reaches.startRefresh (h : Reaches i u s done ahead xf sq (.startRefresh :: rest)) :
    Reaches i u { s with dstate := if sq then s.dstate else .refreshing } done ahead xf sq rest :=
  h.silent (g := fun t => { t with dstate := if sq then t.dstate else .refreshing }) nofun ⟨h.curOk, rfl, rfl, rfl⟩
    (fun _ => rfl) fun t hsq => by subst hsq; rfl

/-- OPEN_WINDOW (R165). -/
theorem Reaches.openWindow (h : Reaches i u s done ahead xf sq (.openWindow :: rest)) :
    Reaches i u
      { s with fb := { s.fb with race := s.fb.race || decide (s.fb.drawOwner ≠ none), uploadOwner := some s.cur } }
      done ahead xf sq rest :=
  h.silent nofun ⟨h.curOk, rfl, rfl, rfl⟩ (fun _ => rfl) fun _ _ => rfl

/-- CLOSE_WINDOW (R165). -/
theorem Reaches.closeWindow (h : Reaches i u s done ahead xf sq (.closeWindow :: rest)) :
    Reaches i u { s with fb := { s.fb with uploadOwner := none } } done ahead xf sq rest :=
  h.silent nofun ⟨h.curOk, rfl, rfl, rfl⟩ (fun _ => rfl) fun _ _ => rfl

/-- The state a protocol request of row `k` has entered (R151, R152, R153). -/
def entered (k : Proto) (s : State) : State :=
  { s with
    fsmOwner := some s.cur, dstate := if allowedFrom k s.dstate then entryState k s.dstate else s.dstate,
    seqErr := s.seqErr || !allowedFrom k s.dstate }

/-- A request just accepted, with both locks free and a legal configuration. -/
structure Starts (s : State) : Prop where
  legal : s.cfg.legal = true
  curOk : s.curOk
  pc : s.seq.pc = 0
  xf : s.seq.xf = false
  sq : s.seq.sq = false
  busFree : s.busOwner = none
  fsmFree : s.fsmOwner = none

/-- ENTRY. -/
theorem Starts.entry (h : Starts s) (hproto : isProtocol i = true) (hlong : ¬TooLong s.cfg i) {k : Proto}
    (hlist : stepList s.cfg i = .entry k :: rest) (hgood : goodXfers s (ahead.countP isXfer))
    (hready : readySamples s (ahead.countP isBusy)) :
    Reaches i s (entered k s) [] ahead false (!allowedFrom k s.dstate) rest := by
  have hlines := hlist ▸ linesAt_protocol s.cfg hproto
  have hentry := exec_entry_line (hlines.at (k := 0) (pc := s.seq.pc) rfl h.pc) hlong h.fsmFree
  refine ⟨h.curOk, xferLimit_pos h.legal, h.busFree, hgood, hready,
    { s.seq with pc := s.seq.pc + 1, sq := s.seq.sq || !allowedFrom k s.dstate }, h.xf, ?_, ?_, 1, ?_⟩
  · rw [h.sq, Bool.false_or]
  · rw [h.pc]; exact hlines.right (l := [.entry k])
  · refine (execN_one hentry).trans (congrArg _ ?_)
    rw [after, List.append_nil]
    rfl

/-- The state a protocol request of row `k` has left; one out of sequence leaves DSTATE (R151, R152, R153). -/
def left (k : Proto) (sq : Bool) (s : State) : State :=
  { s with fsmOwner := none, dstate := if sq then s.dstate else endState k }

/-- The response of a protocol request. -/
def protoResp (xf sq : Bool) : Response := { code := .ok, xf := xf, sq := sq, data := .empty }

/-- EXIT: the end of the request. -/
theorem Reaches.exit {k : Proto} (h : Reaches i u s done ahead xf sq [.exit k]) (howner : s.fsmOwner = some s.cur) :
    Runs i u (after (left k sq s) Seq.idle (done ++ [.resp s.cur (protoResp xf sq)])) := by
  obtain ⟨q, rfl, rfl, hlines, hto⟩ := h.run
  have hexec := exec_exit_line (i := i) (s := after s q done) (by rw [after_seq h.curOk]; exact hlines 0 _ rfl) howner
  rw [after_seq h.curOk] at hexec
  exact hto.trans (.of_exec (hexec.trans (congrArg _
    (after_append (s := left k q.sq s) h.curOk q _ done [.resp s.cur (protoResp q.xf q.sq)]))))

/-- The state after a response: it drives no pin and draws nothing. -/
theorem after_resp (s : State) (q : Machine.Seq) (es : List Event) (p : Nat) (r : Response) :
    after s q (es ++ [.resp p r]) = { s with
      ports := s.portsWithSeq q, pins := pinsAfter s.pins es, trace := s.trace ++ es ++ [.resp p r],
      env := s.env.spent (es.countP isXfer) (es.countP isBusy) } := by
  rw [after, pinsAfter_append, List.countP_append, List.countP_append, List.append_assoc]
  rfl

/-- The lines of REFRESH and EXIT. -/
def refreshLines (c : Cfg) : List Micro :=
  .startRefresh :: (sendCommand c 0x22 (.bytes [c.pRefreshMode]) ++ (sendCommand c 0x20 (.bytes []) ++
    (.delay .act :: (busyWait ++ [.exit .display]))))

/-- REFRESH to the end of the request (R163). -/
theorem Reaches.refresh (h : Reaches i u s done (refreshEvents s.cfg s.fb s.cur) xf sq (refreshLines s.cfg))
    (howner : s.fsmOwner = some s.cur) :
    Runs i u (after (left .display sq s) Seq.idle
      (done ++ refreshEvents s.cfg s.fb s.cur ++ [.resp s.cur (protoResp xf sq)])) := by
  rw [refreshEvents, List.append_assoc, List.append_assoc, ← List.append_nil (waitEvents _ _)] at h
  have hend := (h.startRefresh.command.command.emit (.delay .act)).wait.exit howner
  have hleft : left .display sq { s with dstate := if sq then s.dstate else .refreshing } = left .display sq s := by
    cases sq <;> rfl
  simp only [hleft, List.append_assoc] at hend
  simp only [refreshEvents, List.append_assoc]
  exact hend

end Reaches

/-! ### DISPLAY and CLEAR (41_protocol.md R164, R166) -/

theorem stepList_display (c : Cfg) (b h : List Byte) : stepList c (.display b h) = .entry .display ::
    (sendCommand c 0x4F (.bytes c.pRamyOrigin) ++ (sendCommand c 0x24 (.bytes (padB c b)) ++
      (sendCommand c 0x26 (.bytes (padH c h)) ++ refreshLines c))) := by
  rw [stepList, ← flatten_displayParts]
  simp only [displayParts, refreshLines, List.flatten_cons, List.flatten_nil, List.append_nil, List.cons_append, List.nil_append]

theorem pinsAfter_refreshEvents (p : Pins) (c : Cfg) (f : FrameBuf) (port : Nat) :
    pinsAfter p (refreshEvents c f port) = { p with cs := true, dc := true } := by
  simp only [refreshEvents, pinsAfter_append, pinsAfter_commandEvents]
  rfl

theorem pinsAfter_uploadEvents (p : Pins) (c : Cfg) (f : FrameBuf) (port : Nat) (srcB srcH : Payload) :
    pinsAfter p (uploadEvents c f port srcB srcH) = { p with cs := true, dc := true } := by
  simp only [uploadEvents, pinsAfter_append, pinsAfter_commandEvents]

theorem not_allowedFrom_display (d : DState) : (!allowedFrom .display d) = decide (d ≠ .idle) := by
  cases d <;> rfl

/-- DSTATE is as before the request: it was IDLE, or the request was out of sequence (R151, R152). -/
theorem left_entered_display {s : State} (hfree : s.fsmOwner = none) :
    left .display (decide (s.dstate ≠ .idle)) (entered .display s) =
      { s with seqErr := s.seqErr || decide (s.dstate ≠ .idle) } := by
  have hdstate : (left .display (decide (s.dstate ≠ .idle)) (entered .display s)).dstate = s.dstate := by
    cases hd : s.dstate <;> simp [left, entered, hd, allowedFrom, endState]
  simp only [left, entered] at hdstate ⊢
  rw [hdstate, not_allowedFrom_display, hfree]

/-- What DISPLAY sends where nothing fails. -/
def displayEvents (s : State) (b h : List Byte) : List Event :=
  uploadEvents s.cfg s.fb s.cur (.bytes (padB s.cfg b)) (.bytes (padH s.cfg h)) ++ refreshEvents s.cfg s.fb s.cur

/-- DISPLAY from ENTRY to its response, with no failure. -/
theorem Starts.display_runs {s : State} (hs : Starts s) {b h : List Byte} (hlong : ¬TooLong s.cfg (.display b h))
    (hgood : goodXfers s ((displayEvents s b h).countP isXfer)) (hready : readySamples s ((displayEvents s b h).countP isBusy)) :
    Runs (.display b h) s
      { s with
        ports := s.portsWithSeq Seq.idle, seqErr := s.seqErr || decide (s.dstate ≠ .idle),
        pins := { s.pins with cs := true, dc := true },
        trace := s.trace ++ displayEvents s b h ++
          [.resp s.cur { code := .ok, xf := false, sq := decide (s.dstate ≠ .idle), data := .empty }],
        env := s.env.spent ((displayEvents s b h).countP isXfer) ((displayEvents s b h).countP isBusy) } := by
  have hentered := hs.entry rfl hlong (stepList_display s.cfg b h) hgood hready
  have hpins : pinsAfter s.pins (displayEvents s b h) = { s.pins with cs := true, dc := true } := by
    rw [displayEvents, pinsAfter_append, pinsAfter_uploadEvents, pinsAfter_refreshEvents]
  rw [displayEvents, uploadEvents, List.append_assoc, List.append_assoc] at hentered
  have hend := hentered.command.command.command.refresh rfl
  rw [not_allowedFrom_display, left_entered_display hs.fsmFree, after_resp] at hend
  simp only [← hpins]
  exact hend

/-- Settles O37: DISPLAY from ENTRY to EXIT. -/
theorem displayCompletes : Obligations.DisplayCompletes := by
  intro b h s hlegal hcur hb hh hpc hxf hsq hbus hfsm es hgood hready
  exact (Starts.mk hlegal hcur hpc hxf hsq hbus hfsm).display_runs (not_tooLong_display hb hh) hgood hready

theorem exec_clear (s : State) : exec .clear s = exec (.display [] []) s :=
  (if_neg fun h => not_tooLong_display (b := []) (h := []) (Nat.zero_le _) (Nat.zero_le _) ⟨[], [], rfl, h.2⟩).symm

theorem execN_clear (n : Nat) (s : State) : execN .clear n s = execN (.display [] []) n s := by
  induction n generalizing s with
  | zero => rfl
  | succ n ih => simp only [execN, exec_clear, ih]

/-- Settles O39: step by step CLEAR is DISPLAY, and DISPLAY completes. -/
theorem clearCompletes : Obligations.ClearCompletes := by
  refine ⟨exec_clear, ?_⟩
  intro s hlegal hcur hpc hxf hsq hbus hfsm es hgood hready
  obtain ⟨k, hrun⟩ := (Starts.mk hlegal hcur hpc hxf hsq hbus hfsm).display_runs (b := []) (h := [])
    (not_tooLong_display (Nat.zero_le _) (Nat.zero_le _)) hgood hready
  exact ⟨k, (execN_clear k s).trans hrun⟩

/-! ### INIT (41_protocol.md R160) -/

/-- The events of a row of INIT_SEQ. -/
def rowEvents (c : Cfg) (f : FrameBuf) (p : Nat) (r : Byte × List Byte × Bool) : List Event :=
  commandEvents c f p r.1 (.bytes r.2.1) ++ if r.2.2 then waitEvents c.busyReady 0 else []

section Rows

variable {i : Instr} {u s : State} {done ahead : List Event} {xf sq : Bool} {rest : List Micro}

theorem Reaches.row {r : Byte × List Byte × Bool}
    (h : Reaches i u s done (rowEvents s.cfg s.fb s.cur r ++ ahead) xf sq (rowSteps s.cfg r ++ rest)) :
    Reaches i u s (done ++ rowEvents s.cfg s.fb s.cur r) ahead xf sq rest := by
  obtain ⟨op, payload, wait⟩ := r
  rw [rowEvents, rowSteps, List.append_assoc, List.append_assoc] at h
  have hsent := h.command
  rw [rowEvents, ← List.append_assoc]
  cases wait with
  | true => exact hsent.wait
  | false => simpa using hsent

theorem Reaches.rows {rows : List (Byte × List Byte × Bool)}
    (h : Reaches i u s done (rows.flatMap (rowEvents s.cfg s.fb s.cur) ++ ahead) xf sq (rows.flatMap (rowSteps s.cfg) ++ rest)) :
    Reaches i u s (done ++ rows.flatMap (rowEvents s.cfg s.fb s.cur)) ahead xf sq rest := by
  induction rows generalizing done with
  | nil => simpa using h
  | cons r rows ih =>
    rw [List.flatMap_cons, List.flatMap_cons, List.append_assoc, List.append_assoc] at h
    rw [List.flatMap_cons, ← List.append_assoc]
    exact ih h.row

end Rows

theorem pinsAfter_rowEvents (p : Pins) (c : Cfg) (f : FrameBuf) (port : Nat) (r : Byte × List Byte × Bool) :
    pinsAfter p (rowEvents c f port r) = { p with cs := true, dc := true } := by
  rw [rowEvents, pinsAfter_append, pinsAfter_commandEvents]
  split
  · rfl
  · rfl

theorem pinsAfter_rows {rows : List (Byte × List Byte × Bool)} (hne : rows ≠ []) (p : Pins) (c : Cfg) (f : FrameBuf)
    (port : Nat) : pinsAfter p (rows.flatMap (rowEvents c f port)) = { p with cs := true, dc := true } := by
  induction rows generalizing p with
  | nil => exact absurd rfl hne
  | cons r rows ih =>
    rw [List.flatMap_cons, pinsAfter_append, pinsAfter_rowEvents]
    cases rows with
    | nil => rfl
    | cons r' rows => exact ih nofun _

theorem pinsAfter_initEvents (p : Pins) (c : Cfg) (f : FrameBuf) (port : Nat) :
    pinsAfter p (initEvents c f port) = { rst := true, cs := true, dc := true } := by
  rw [initEvents, pinsAfter_append]
  exact pinsAfter_rows (rows := initRows c) nofun _ c f port

/-- INIT is always allowed, and ends IDLE (R151, R160). -/
theorem left_entered_init {s : State} (hfree : s.fsmOwner = none) :
    left .init false (entered .init s) = { s with dstate := .idle } := by
  simp only [left, entered, allowedFrom, Bool.not_true, Bool.or_false, hfree]
  rfl

theorem stepList_init (c : Cfg) : stepList c .init =
    .entry .init :: (resetPulse ++ ((initRows c).flatMap (rowSteps c) ++ [.exit .init])) := by
  simp [stepList, initSteps, initSeq_eq_rows]

/-- Settles O35: the pulse, the rows of INIT_SEQ, and EXIT. -/
theorem initCompletes : Obligations.InitCompletes := by
  intro s hlegal hcur hpc hxf hsq hbus hfsm es hgood hready
  have hs : Starts s := ⟨hlegal, hcur, hpc, hxf, hsq, hbus, hfsm⟩
  have hentered := hs.entry (i := .init) rfl (by rintro ⟨_, _, h, -⟩; cases h) (stepList_init s.cfg) hgood hready
  rw [show es = pulseEvents s.cur ++ ((initRows s.cfg).flatMap (rowEvents s.cfg s.fb s.cur) ++ []) by
    rw [List.append_nil]; rfl] at hentered
  have hend := hentered.pulse.rows.exit rfl
  have hpins : pinsAfter s.pins es = { rst := true, cs := true, dc := true } := pinsAfter_initEvents ..
  rw [show (!allowedFrom .init s.dstate) = false from rfl, left_entered_init hfsm, after_resp] at hend
  rw [← hpins]
  exact hend

/-! ### DISPLAY_FB (41_protocol.md R165) -/

/-- A plane reference stands for the plane's bytes, whatever the race flag and the owners are (40_channel.md R120). -/
theorem payloadSlice_plane {f g : FrameBuf} (pl : Plane) (hbytes : ∀ k, g.readByte pl k = f.readByte pl k) {n hi : Nat}
    (lo : Nat) (hhi : hi ≤ n) : payloadSlice g (.plane pl) lo hi =
      payloadSlice f (.bytes ((List.range n).map (f.readByte pl))) lo hi := by
  rw [payloadSlice, payloadSlice]
  refine List.ext_getElem (by simp; omega) fun k hk hk' => ?_
  simp [hbytes]

theorem commandEvents_plane {c : Cfg} {f g : FrameBuf} {pl : Plane} (hbytes : ∀ k, g.readByte pl k = f.readByte pl k)
    (p : Nat) (op : Byte) : commandEvents c g p op (.plane pl) =
      commandEvents c f p op (.bytes ((List.range c.planeSize).map (f.readByte pl))) := by
  have hlen : payloadLen c (.bytes ((List.range c.planeSize).map (f.readByte pl))) = payloadLen c (.plane pl) := by
    simp [payloadLen]
  have hchunk (k : Nat) : payloadChunk c g (.plane pl) k =
      payloadChunk c f (.bytes ((List.range c.planeSize).map (f.readByte pl))) k := by
    rw [payloadChunk, payloadChunk, hlen]
    exact payloadSlice_plane pl hbytes _ (Nat.min_le_right _ _)
  simp only [commandEvents, chunkEvents, hlen, hchunk]

theorem stepList_displayFb (c : Cfg) : stepList c .displayFb = .entry .display ::
    (sendCommand c 0x4F (.bytes c.pRamyOrigin) ++ (.openWindow :: (sendCommand c 0x24 (.plane .black) ++
      (sendCommand c 0x26 (.plane .hl) ++ (.closeWindow :: refreshLines c))))) := by
  rw [stepList, ← flatten_displayFbParts]
  simp only [displayFbParts, refreshLines, List.flatten_cons, List.flatten_nil, List.append_nil, List.cons_append,
    List.nil_append]

/-- The lines of the upload window. -/
theorem stepAt_window (c : Cfg) :
    let opening := 9 + nchunks c c.pRamyOrigin.length
    stepAt c .displayFb opening = some .openWindow ∧
      stepAt c .displayFb (opening + 17 + 2 * nchunks c c.planeSize) = some .closeWindow := by
  intro opening
  have hlines := stepList_displayFb c ▸ linesAt_protocol c (i := .displayFb) rfl
  have hopen := (hlines.right (l := [.entry .display]) (l' := sendCommand c 0x4F (.bytes c.pRamyOrigin) ++ _)).right
  have hclose := (hopen.right (l := [.openWindow]) (l' := sendCommand c 0x24 (.plane .black) ++ _)).right.right
  rw [sendCommand_length] at hopen
  rw [sendCommand_length, sendCommand_length, sendCommand_length] at hclose
  refine ⟨hopen.at (k := 0) rfl ?_, hclose.at (k := 0) rfl ?_⟩
  · simp [opening, payloadLen]; omega
  · simp [opening, payloadLen]; omega

/-- The framebuffer with the port's upload window open. -/
def windowOpen (f : FrameBuf) (p : Nat) : FrameBuf :=
  { f with race := f.race || decide (f.drawOwner ≠ none), uploadOwner := some p }

/-- Settles O40: the two lines of the window, and the run with the planes' bytes. -/
theorem displayFbCompletes : Obligations.DisplayFbCompletes := by
  intro s
  obtain ⟨hopen, hclose⟩ := stepAt_window s.cfg
  refine ⟨⟨fun hpc => ?_, fun hpc => ?_⟩, ?_⟩
  · rw [← hpc] at hopen ⊢
    exact exec_line hopen nofun
  · rw [← hpc] at hclose ⊢
    exact exec_line hclose nofun
  intro hlegal hcur hpc hxf hsq hbus hfsm es hgood hready
  have hs : Starts s := ⟨hlegal, hcur, hpc, hxf, hsq, hbus, hfsm⟩
  have hentered := hs.entry (i := .displayFb) rfl (by rintro ⟨_, _, h, -⟩; cases h) (stepList_displayFb s.cfg) hgood hready
  have hes : es = commandEvents s.cfg s.fb s.cur 0x4F (.bytes s.cfg.pRamyOrigin) ++
      (commandEvents s.cfg (windowOpen s.fb s.cur) s.cur 0x24 (.plane .black) ++
        (commandEvents s.cfg (windowOpen s.fb s.cur) s.cur 0x26 (.plane .hl) ++ refreshEvents s.cfg s.fb s.cur)) := by
    have hplane (op : Byte) (pl : Plane) (hbytes : ∀ k, (windowOpen s.fb s.cur).readByte pl k = s.fb.readByte pl k) :=
      commandEvents_plane (c := s.cfg) hbytes s.cur op
    rw [hplane 0x24 .black fun _ => rfl, hplane 0x26 .hl fun _ => rfl]
    simp only [es, uploadEvents, List.append_assoc]
  have hpins : pinsAfter s.pins es = { s.pins with cs := true, dc := true } := by
    rw [show es = _ from rfl, pinsAfter_append, pinsAfter_uploadEvents, pinsAfter_refreshEvents]
  rw [hes] at hentered
  have hend := hentered.command.openWindow.command.command.closeWindow.refresh rfl
  have hdone : [] ++ commandEvents s.cfg s.fb s.cur 0x4F (.bytes s.cfg.pRamyOrigin) ++
      commandEvents s.cfg (windowOpen s.fb s.cur) s.cur 0x24 (.plane .black) ++
      commandEvents s.cfg (windowOpen s.fb s.cur) s.cur 0x26 (.plane .hl) ++ refreshEvents s.cfg s.fb s.cur = es := by
    simp only [hes, List.nil_append, List.append_assoc]
  have hleft := left_entered_display (s := { s with fb := { windowOpen s.fb s.cur with uploadOwner := none } }) hfsm
  rw [not_allowedFrom_display] at hend
  change Runs .displayFb s (after (left .display _ (entered .display
    { s with fb := { windowOpen s.fb s.cur with uploadOwner := none } })) Seq.idle ([] ++ _ ++ _ ++ _ ++ _ ++ _)) at hend
  rw [hleft, after_resp] at hend
  rw [← hpins, ← hdone]
  exact hend

/-! ### Commands that fail inside a protocol request (41_protocol.md R169) -/

namespace Progress

/-- The lines of a logical command after a failed transfer. -/
def closeFailed (s : State) (what : LogWhat) (p : Progress) : Progress := ((p.drive .cs true).releaseFailed s).log s what

theorem closeFailed_eq (s : State) (what : LogWhat) (p : Progress) : p.closeFailed s what =
    { p with
      seq := { p.seq with pc := p.seq.pc + 3, xf := true }, owner := none, pins := { p.pins with cs := true },
      events := p.events ++ [.pin .cs true, .lock s.cur .rel, .log s.cur what p.seq.sent] } := by
  simp [closeFailed, drive, releaseFailed, log, Pins.drive]

end Progress

section Failed

variable {i : Instr} {s : State} {p : Progress} {op : Byte} {src : Payload} {m : Nat} {ok : Bool}
  {more : List (Nat × Bool)} (hcur : s.curOk)
include hcur

/-- After a failed transfer: CS up, the lock's release and LOG_XFER (40_channel.md R123, R124). -/
theorem runs_closeFailed {what : LogWhat} (howner : p.owner = some s.cur) (hok : p.seq.ok = false)
    (hlines : LinesAt s.cfg i p.seq.pc [.pin .cs true, .releaseCmd, .logXfer what]) :
    Runs i (reached s p) (reached { s with err := s.err.logged what p.seq.sent } (p.closeFailed s what)) := by
  have hraised := (Runs.refl i _).line hcur (hlines 0 _ rfl) (reached_pin hcur .cs true)
  have hreleased := hraised.line hcur (hlines 1 _ rfl) (reached_releaseCmd_failed hcur howner hok)
  have hlog := exec_line (i := i) (s := reached s ((p.drive .cs true).releaseFailed s)) (m := .logXfer what)
    (by rw [reached_seq hcur]; exact hlines 2 _ rfl) nofun
  exact hreleased.trans (.of_exec (hlog.trans (reached_logXfer hcur what)))

/-- A SEND_COMMAND whose opcode transfer fails: its payload is left out (R124). -/
theorem runs_failedOpcode (hfree : p.owner = none) (hlines : LinesAt s.cfg i p.seq.pc (sendCommand s.cfg op src))
    (hnext : s.env.xferIn.drop p.spent = (m, ok) :: more) (hfail : ¬(ok = true ∧ 1 ≤ m)) :
    Runs i (reached s p) (reached { s with err := s.err.logged (.opcode op) (min m 1) }
      { seq := { p.seq with
          pc := p.seq.pc + (sendCommand s.cfg op src).length, xf := true, sent := min m 1, ok := false },
        owner := none, pins := { p.pins with cs := true, dc := false },
        events := p.events ++ opFailEvents s.cur op (min m 1) ok, spent := p.spent + 1 }) := by
  have hlen := sendCommand_length s.cfg op src
  rw [sendCommand_eq] at hlines
  have hopened := runs_openWith hcur hfree (hlines.left.left (l := [_, _, _]) (l' := [_, _]))
  have hfailed := hopened.line hcur (hlines.left 3 _ rfl)
    (reached_xferOp_fails (p := p.openWith s false) hcur hnext op _ hfail)
  have hclosing := hlines.right.right
  rw [dataBody_length] at hclosing
  have hclosed := hfailed.trans (runs_closeFailed hcur rfl rfl (what := .opcode op) (by
    refine Eq.mp (congrArg (LinesAt s.cfg i · _) ?_) hclosing
    show p.seq.pc + 5 + nchunks s.cfg (payloadLen s.cfg src) = p.seq.pc + 3 + (1 + (1 + nchunks s.cfg (payloadLen s.cfg src)))
    omega))
  rw [Progress.closeFailed_eq] at hclosed
  have hpc : p.seq.pc + 3 + (1 + (1 + nchunks s.cfg (payloadLen s.cfg src))) + 3 =
      p.seq.pc + (sendCommand s.cfg op src).length := by omega
  rw [← hpc]
  simpa [Progress.failXfer, Progress.openWith, Progress.acquire, Progress.drive, Pins.drive, opFailEvents] using hclosed

/-- A SEND_COMMAND whose chunk `k` fails: the later ones are left out (R123, R124). -/
theorem runs_failedChunkCommand (hlimit : 1 ≤ s.cfg.xferLimit) (hfree : p.owner = none)
    (hlines : LinesAt s.cfg i p.seq.pc (sendCommand s.cfg op src)) {k : Nat}
    (hk : k < nchunks s.cfg (payloadLen s.cfg src)) (hgood : goodXfers s (p.spent + (1 + k)))
    (hnext : s.env.xferIn.drop (p.spent + (1 + k)) = (m, ok) :: more)
    (hfail : ¬(ok = true ∧ (payloadChunk s.cfg s.fb src k).length ≤ m)) :
    let len := (payloadChunk s.cfg s.fb src k).length
    let sent := 1 + k * s.cfg.xferLimit + min m len
    Runs i (reached s p) (reached { s with err := s.err.logged (.opcode op) sent }
      { seq := { p.seq with pc := p.seq.pc + (sendCommand s.cfg op src).length, xf := true, sent := sent, ok := false },
        owner := none, pins := { p.pins with cs := true, dc := true },
        events := p.events ++
          ([.lock s.cur .acq, .pin .cs false, .pin .dc false, .xfer s.cur [op] 1 true, .pin .dc true] ++
            chunkFailEvents s.cfg s.fb s.cur src k (min m len) ok ++
            [.pin .cs true, .lock s.cur .rel, .log s.cur (.opcode op) sent]),
        spent := p.spent + (1 + k) + 1 }) := by
  intro len sent
  have hlen := sendCommand_length s.cfg op src
  rw [sendCommand_eq] at hlines
  have hopened := runs_openWith hcur hfree (hlines.left.left (l := [_, _, _]) (l' := [_, _]))
  have hop := hopened.line hcur (hlines.left 3 _ rfl)
    (reached_xferOp (p := p.openWith s false) hcur hlimit hgood op _ (by show p.spent < _; omega))
  have hdc := hop.line hcur (hlines.left 4 _ rfl) (reached_pin hcur .dc true)
  have hchunks : LinesAt s.cfg i (p.openCommand s op).seq.pc (commandEnd s.cfg src (.opcode op)) := hlines.right
  have hsent := runs_chunks (p := p.openCommand s op) hcur hlimit hgood rfl hchunks.left hk.le
    (by show p.spent + 1 + k ≤ _; omega)
  have heq := Progress.sendChunks_eq s src (p.openCommand s op) rfl k
  have hline : stepAt s.cfg i ((p.openCommand s op).sendChunks s src k).seq.pc =
      some (.xferChunk src k (nchunks s.cfg (payloadLen s.cfg src) - 1 - k)) := by
    rw [heq]; exact hchunks.left k _ (dataBody_getElem? s.cfg src hk)
  have hfailed := hsent.line hcur hline (reached_xferChunk_fails hcur (more := more)
    (by rw [heq]; show s.env.xferIn.drop (p.spent + 1 + k) = _; rw [Nat.add_assoc]; exact hnext) src k _ hfail)
  change Runs i _ (reached s ((p.openCommand s op).failChunk s src k m ok)) at hfailed
  rw [Progress.failChunk_eq m ok rfl hlimit hk] at hfailed
  have hclosing := hchunks.right
  rw [dataBody_length] at hclosing
  have hclosed := (hdc.trans hfailed).trans (runs_closeFailed hcur rfl rfl hclosing)
  rw [Progress.closeFailed_eq] at hclosed
  have hpc : p.seq.pc + 5 + nchunks s.cfg (payloadLen s.cfg src) + 3 = p.seq.pc + (sendCommand s.cfg op src).length := by
    omega
  rw [← hpc]
  simpa [Progress.openCommand, Progress.openWith, Progress.acquire, Progress.drive, Progress.sendOp, Pins.drive, Nat.add_assoc,
    sent, len] using hclosed

end Failed

/-- The state with the events `es` behind it, the running port's sequencer as it was. -/
def past (s : State) (es : List Event) : State :=
  { s with
    pins := pinsAfter s.pins es, trace := s.trace ++ es, env := s.env.spent (es.countP isXfer) (es.countP isBusy) }

theorem after_past (s : State) (q : Machine.Seq) (es es' : List Event) : after (past s es) q es' = after s q (es ++ es') := by
  simp only [after, past, pinsAfter_append, List.countP_append, List.append_assoc, Env.spent, List.drop_drop]
  rfl

/-- The state with a failed transfer logged. -/
def failed (s : State) (op : Byte) (sent : Nat) : State := { s with err := s.err.logged (.opcode op) sent }

section Reaches

variable {i : Instr} {u s : State} {done ahead : List Event} {xf sq : Bool} {rest : List Micro} {op : Byte} {src : Payload}
  {m : Nat} {ok : Bool} {more : List (Nat × Bool)}

/-- A command that failed and was logged; what lies ahead starts from there. -/
theorem Reaches.failure {sent : Nat} {es : List Event} (h : Reaches i u s done [] xf sq (sendCommand s.cfg op src ++ rest))
    (hrun : ∀ q : Machine.Seq, LinesAt s.cfg i q.pc (sendCommand s.cfg op src) → Runs i (after s q done)
      (after (failed s op sent)
        { q with pc := q.pc + (sendCommand s.cfg op src).length, xf := true, sent := sent, ok := false } (done ++ es)))
    (hgood : goodXfers (past (failed s op sent) (done ++ es)) (ahead.countP isXfer))
    (hready : readySamples (past (failed s op sent) (done ++ es)) (ahead.countP isBusy)) :
    Reaches i u (past (failed s op sent) (done ++ es)) [] ahead true sq rest := by
  obtain ⟨q, -, hsq, hlines, hto⟩ := h.run
  refine ⟨h.curOk, h.limit, h.free, hgood, hready,
    { q with pc := q.pc + (sendCommand s.cfg op src).length, xf := true, sent := sent, ok := false }, rfl, hsq, hlines.right, ?_⟩
  rw [after_past, List.append_nil]
  exact hto.trans (hrun q hlines.left)

theorem Reaches.failOpcode (h : Reaches i u s done [] xf sq (sendCommand s.cfg op src ++ rest))
    (hnext : s.env.xferIn.drop (done.countP isXfer) = (m, ok) :: more) (hfail : ¬(ok = true ∧ 1 ≤ m)) :
    let t := past (failed s op (min m 1)) (done ++ opFailEvents s.cur op (min m 1) ok)
    goodXfers t (ahead.countP isXfer) → readySamples t (ahead.countP isBusy) → Reaches i u t [] ahead true sq rest := by
  intro t hgood hready
  refine h.failure (fun q hlines => ?_) hgood hready
  have hrun := runs_failedOpcode (s := { s with env := s.env.spent 0 (done.countP isBusy) })
    (p := { seq := q, owner := none, pins := pinsAfter s.pins done, events := done, spent := done.countP isXfer })
    h.curOk rfl hlines hnext hfail
  have hfree : (failed s op (min m 1)).busOwner = none := h.free
  rw [after_eq_reached h.free, after_eq_reached hfree, List.countP_append, List.countP_append, pinsAfter_append]
  exact hrun

/-- The events of a SEND_COMMAND whose chunk `k` fails after `sent` bytes. -/
def chunkFailCommand (c : Cfg) (f : FrameBuf) (p : Nat) (op : Byte) (src : Payload) (k m : Nat) (ok : Bool) (sent : Nat) :
    List Event :=
  [Event.lock p .acq, .pin .cs false, .pin .dc false, .xfer p [op] 1 true, .pin .dc true] ++ chunkFailEvents c f p src k m ok ++
    [Event.pin .cs true, .lock p .rel, .log p (.opcode op) sent]

theorem not_pin_of_isXfer {e : Event} (h : isXfer e = true) : isPin e = false := by
  cases e with
  | xfer _ _ _ _ => rfl
  | pin _ _ | busy _ | delay _ | lock _ _ | log _ _ _ | resp _ _ => cases h

theorem not_busy_of_isXfer {e : Event} (h : isXfer e = true) : ¬isBusy e = true := by
  cases e with
  | xfer _ _ _ _ => exact nofun
  | pin _ _ | busy _ | delay _ | lock _ _ | log _ _ _ | resp _ _ => cases h

/-- The payload transfers up to the failed one are transfers all. -/
theorem isXfer_chunkFailEvents (c : Cfg) (f : FrameBuf) (p : Nat) (src : Payload) (k m : Nat) (ok : Bool) :
    ∀ e ∈ chunkFailEvents c f p src k m ok, isXfer e = true := by
  refine List.forall_mem_append.mpr ⟨fun e he => ?_, by simp [isXfer]⟩
  obtain ⟨_, -, rfl⟩ := List.mem_map.mp (List.mem_of_mem_take he)
  rfl

section ChunkFail

variable {c : Cfg} {src : Payload} {k : Nat} (f : FrameBuf) (p : Nat) (op : Byte) (m : Nat) (ok : Bool) (sent : Nat)

theorem pinsAfter_chunkFailCommand (pins : Pins) :
    pinsAfter pins (chunkFailCommand c f p op src k m ok sent) = { pins with cs := true, dc := true } := by
  have hpin : ∀ e ∈ chunkFailEvents c f p src k m ok, isPin e = false := fun e he =>
    not_pin_of_isXfer (isXfer_chunkFailEvents c f p src k m ok e he)
  rw [chunkFailCommand, pinsAfter_append, pinsAfter_append, pinsAfter_eq_self hpin]
  rfl

theorem countP_chunkFailCommand_isBusy : (chunkFailCommand c f p op src k m ok sent).countP isBusy = 0 := by
  have hbusy : (chunkFailEvents c f p src k m ok).countP isBusy = 0 := List.countP_eq_zero.mpr fun e he =>
    not_busy_of_isXfer (isXfer_chunkFailEvents c f p src k m ok e he)
  rw [chunkFailCommand, List.countP_append, List.countP_append, hbusy]
  rfl

theorem countP_chunkFailCommand_isXfer (hk : k < nchunks c (payloadLen c src)) :
    (chunkFailCommand c f p op src k m ok sent).countP isXfer = 1 + k + 1 := by
  have hxfer : (chunkFailEvents c f p src k m ok).countP isXfer = k + 1 := by
    rw [List.countP_eq_length.mpr (isXfer_chunkFailEvents c f p src k m ok)]
    simp [chunkFailEvents, chunkEvents, hk.le]
  rw [chunkFailCommand, List.countP_append, List.countP_append, hxfer, Nat.add_assoc]
  rfl

end ChunkFail

theorem Reaches.failChunk (h : Reaches i u s done [] xf sq (sendCommand s.cfg op src ++ rest)) {k : Nat}
    (hk : k < nchunks s.cfg (payloadLen s.cfg src)) (hbefore : goodXfers s (done.countP isXfer + (1 + k)))
    (hnext : s.env.xferIn.drop (done.countP isXfer + (1 + k)) = (m, ok) :: more)
    (hfail : ¬(ok = true ∧ (payloadChunk s.cfg s.fb src k).length ≤ m)) :
    let len := (payloadChunk s.cfg s.fb src k).length
    let sent := 1 + k * s.cfg.xferLimit + min m len
    let t := past (failed s op sent) (done ++ chunkFailCommand s.cfg s.fb s.cur op src k (min m len) ok sent)
    goodXfers t (ahead.countP isXfer) → readySamples t (ahead.countP isBusy) → Reaches i u t [] ahead true sq rest := by
  intro len sent t hgood hready
  refine h.failure (fun q hlines => ?_) hgood hready
  have hrun := runs_failedChunkCommand (s := { s with env := s.env.spent 0 (done.countP isBusy) })
    (p := { seq := q, owner := none, pins := pinsAfter s.pins done, events := done, spent := done.countP isXfer })
    h.curOk h.limit rfl hlines hk hbefore hnext hfail
  have hfree : (failed s op sent).busOwner = none := h.free
  rw [after_eq_reached h.free, after_eq_reached hfree, List.countP_append, List.countP_append, pinsAfter_append,
    pinsAfter_chunkFailCommand, countP_chunkFailCommand_isBusy, countP_chunkFailCommand_isXfer _ _ _ _ _ _ hk,
    ← Nat.add_assoc]
  exact hrun

end Reaches

/-! ### SLEEP (R167) -/

theorem stepList_sleep (c : Cfg) :
    stepList c .sleep = .entry .sleep :: (sendCommand c 0x10 (.bytes [0x01]) ++ [.exit .sleep]) := rfl

theorem not_allowedFrom_sleep (d : DState) : (!allowedFrom .sleep d) = decide (¬(d = .idle ∨ d = .asleep)) := by
  cases d <;> rfl

/-- SLEEP ends ASLEEP where it was allowed, and else leaves DSTATE (R151, R152). -/
theorem left_entered_sleep {s : State} (hfree : s.fsmOwner = none) :
    left .sleep (decide ¬(s.dstate = .idle ∨ s.dstate = .asleep)) (entered .sleep s) =
      { s with
        seqErr := s.seqErr || decide ¬(s.dstate = .idle ∨ s.dstate = .asleep),
        dstate := if s.dstate = .idle ∨ s.dstate = .asleep then .asleep else s.dstate } := by
  have hdstate : (left .sleep (decide ¬(s.dstate = .idle ∨ s.dstate = .asleep)) (entered .sleep s)).dstate =
      if s.dstate = .idle ∨ s.dstate = .asleep then .asleep else s.dstate := by
    cases hd : s.dstate <;> simp [left, entered, hd, allowedFrom, endState]
  simp only [left, entered] at hdstate ⊢
  rw [hdstate, not_allowedFrom_sleep, hfree]

theorem goodXfers_zero (s : State) : goodXfers s 0 := ⟨Nat.zero_le _, nofun⟩

theorem readySamples_zero (s : State) : readySamples s 0 := ⟨Nat.zero_le _, nofun⟩

/-- Settles O42: ENTRY, the one command with or without a failure, and EXIT. -/
theorem sleepCompletes : Obligations.SleepCompletes := by
  intro s hlegal hcur hpc hxf hsq hbus hfsm allowed
  have hs : Starts s := ⟨hlegal, hcur, hpc, hxf, hsq, hbus, hfsm⟩
  have hlong : ¬TooLong s.cfg .sleep := by rintro ⟨_, _, h, -⟩; cases h
  refine ⟨?_, fun m ok more hnext hfail => ?_⟩
  · intro es hgood
    have hbusy : es.countP isBusy = 0 := countP_commandEvents_isBusy ..
    have hentered := hs.entry (ahead := es ++ []) rfl hlong (stepList_sleep s.cfg) (by rwa [List.append_nil])
      (by rw [List.append_nil, hbusy]; exact readySamples_zero s)
    have hend := hentered.command.exit rfl
    have hpins : pinsAfter s.pins es = { s.pins with cs := true, dc := true } := pinsAfter_commandEvents ..
    rw [not_allowedFrom_sleep, left_entered_sleep hfsm, after_resp] at hend
    rw [← hpins, ← hbusy]
    exact hend
  · have hentered := hs.entry (ahead := []) rfl hlong (stepList_sleep s.cfg) (goodXfers_zero s) (readySamples_zero s)
    have hend := (hentered.failOpcode (ahead := []) hnext hfail (goodXfers_zero _) (readySamples_zero _)).exit rfl
    change Runs .sleep s (after (past (failed (left .sleep _ (entered .sleep s)) 0x10 (min m 1)) _) Seq.idle _) at hend
    have henv : s.env.spent 1 0 = { s.env with xferIn := more } := spent_of_drop (k := 0) hnext
    rw [after_past, not_allowedFrom_sleep, left_entered_sleep hfsm, List.nil_append, List.nil_append, after_resp] at hend
    rw [← henv]
    exact hend

/-! ### A DISPLAY whose 0x24 command fails (41_protocol.md R169) -/

section FailedWrite

variable (s : State) (h : List Byte)

/-- The events before the failed command. -/
def firstEvents : List Event := commandEvents s.cfg s.fb s.cur 0x4F (.bytes s.cfg.pRamyOrigin)

/-- The events after it. -/
def lastEvents : List Event :=
  commandEvents s.cfg s.fb s.cur 0x26 (.bytes (padH s.cfg h)) ++ refreshEvents s.cfg s.fb s.cur

/-- The state DISPLAY ends in after the 0x24 command has failed with the events `fail`; the outcomes of later transfers are
`more`. -/
def answeredFailed (sent : Nat) (fail : List Event) (more : List (Nat × Bool)) : State :=
  { s with
    ports := s.portsWithSeq Seq.idle, seqErr := s.seqErr || decide (s.dstate ≠ .idle),
    pins := { s.pins with cs := true, dc := true }, err := s.err.logged (.opcode 0x24) sent,
    trace := s.trace ++ firstEvents s ++ fail ++ lastEvents s h ++
      [.resp s.cur (protoResp true (decide (s.dstate ≠ .idle)))],
    env := { s.env with
      xferIn := more.drop ((lastEvents s h).countP isXfer), busyIn := s.env.busyIn.drop ((lastEvents s h).countP isBusy) } }

variable {s h} {b : List Byte} {sent : Nat} {fail : List Event} {more : List (Nat × Bool)}

/-- DISPLAY up to its 0x24 command. -/
theorem Starts.reaches_write (hs : Starts s) (hlong : ¬TooLong s.cfg (.display b h))
    (hgood : goodXfers s ((firstEvents s).countP isXfer)) : Reaches (.display b h) s (entered .display s) (firstEvents s) []
      false (decide (s.dstate ≠ .idle)) (sendCommand s.cfg 0x24 (.bytes (padB s.cfg b)) ++
        (sendCommand s.cfg 0x26 (.bytes (padH s.cfg h)) ++ refreshLines s.cfg)) := by
  have hbusy : (firstEvents s).countP isBusy = 0 := countP_commandEvents_isBusy ..
  have hentered := hs.entry (ahead := firstEvents s ++ []) rfl hlong (stepList_display s.cfg b h)
    (by rwa [List.append_nil]) (by rw [List.append_nil, hbusy]; exact readySamples_zero s)
  rw [← not_allowedFrom_display]
  exact hentered.command

theorem pinsAfter_lastEvents (p : Pins) : pinsAfter p (lastEvents s h) = { p with cs := true, dc := true } := by
  rw [lastEvents, pinsAfter_append, pinsAfter_commandEvents, pinsAfter_refreshEvents]

/-- DISPLAY from the end of its failed 0x24 command to its response. -/
theorem runs_answeredFailed (hfree : s.fsmOwner = none)
    (hpins : ∀ p, (pinsAfter p fail).rst = p.rst) (hbusy : fail.countP isBusy = 0)
    (hmore : s.env.xferIn.drop ((firstEvents s ++ fail).countP isXfer) = more)
    (hreach : Reaches (.display b h) s (past (failed (entered .display s) 0x24 sent) (firstEvents s ++ fail)) []
      (lastEvents s h) true (decide (s.dstate ≠ .idle))
      (sendCommand s.cfg 0x26 (.bytes (padH s.cfg h)) ++ refreshLines s.cfg)) :
    Runs (.display b h) s (answeredFailed s h sent fail more) := by
  have hend := hreach.command.refresh rfl
  change Runs (.display b h) s (after (past (failed (left .display _ (entered .display s)) 0x24 sent) _) Seq.idle
    (lastEvents s h ++ [.resp s.cur (protoResp true _)])) at hend
  have hpinsAll : pinsAfter s.pins (firstEvents s ++ fail ++ lastEvents s h) = { s.pins with cs := true, dc := true } := by
    rw [pinsAfter_append, pinsAfter_lastEvents, pinsAfter_append, hpins, firstEvents, pinsAfter_commandEvents]
  have henv : s.env.spent ((firstEvents s ++ fail ++ lastEvents s h).countP isXfer)
      ((firstEvents s ++ fail ++ lastEvents s h).countP isBusy) =
      { s.env with
        xferIn := more.drop ((lastEvents s h).countP isXfer), busyIn := s.env.busyIn.drop ((lastEvents s h).countP isBusy) } := by
    have hfirst : (firstEvents s).countP isBusy = 0 := countP_commandEvents_isBusy ..
    rw [List.countP_append, List.countP_append (p := isBusy), List.countP_append (p := isBusy), hfirst, hbusy, Nat.zero_add,
      Env.spent, ← List.drop_drop, hmore]
  rw [after_past, left_entered_display hfree, ← List.append_assoc, after_resp] at hend
  rw [answeredFailed, ← henv, ← hpinsAll, List.append_assoc s.trace, List.append_assoc s.trace]
  exact hend

/-- The draws fixed for the events after the failure. -/
theorem draws_past_failed (hbusy : fail.countP isBusy = 0)
    (hmore : s.env.xferIn.drop ((firstEvents s ++ fail).countP isXfer) = more)
    (hgood : goodXfers { s with env := { s.env with xferIn := more } } ((lastEvents s h).countP isXfer))
    (hready : readySamples s ((lastEvents s h).countP isBusy)) :
    let t := past (failed (entered .display s) 0x24 sent) (firstEvents s ++ fail)
    goodXfers t ((lastEvents s h).countP isXfer) ∧ readySamples t ((lastEvents s h).countP isBusy) := by
  intro t
  have hnone : (firstEvents s ++ fail).countP isBusy = 0 := by
    rw [List.countP_append, hbusy, firstEvents, countP_commandEvents_isBusy]
  have hxfer : t.env.xferIn = more := hmore
  have hsamples : t.env.busyIn = s.env.busyIn := congrArg s.env.busyIn.drop hnone
  rw [goodXfers, readySamples, hxfer, hsamples]
  exact ⟨hgood, hready⟩

/-- A buffer of at most a plane, padded, is as long as the plane (R162). -/
theorem payloadLen_padB {c : Cfg} (hb : b.length ≤ c.planeSize) : payloadLen c (.bytes (padB c b)) = c.planeSize := by
  simp [payloadLen, padB, fill, hb]

end FailedWrite

/-- Settles O41: DISPLAY up to the 0x24 command, its failure, and the run to the response. -/
theorem displayGoesOnAfterFailedWrite : Obligations.DisplayGoesOnAfterFailedWrite := by
  intro b h s m ok more hlegal hcur hb hh hpc hxf hsq hbus hfsm srcB first last answered hlast hready
  have hs : Starts s := ⟨hlegal, hcur, hpc, hxf, hsq, hbus, hfsm⟩
  have hlong := not_tooLong_display hb hh
  refine ⟨fun hgood hnext hfail => ?_, fun j hj => ?_⟩
  · have hmore : s.env.xferIn.drop ((first ++ opFailEvents s.cur 0x24 (min m 1) ok).countP isXfer) = more := by
      rw [List.countP_append]
      exact List.drop_add_one_eq_tail_drop.trans (congrArg List.tail hnext)
    obtain ⟨hgoodLast, hreadyLast⟩ := draws_past_failed (sent := min m 1) rfl hmore hlast hready
    exact runs_answeredFailed hfsm (fun _ => rfl) rfl hmore
      ((hs.reaches_write hlong hgood).failOpcode hnext hfail hgoodLast hreadyLast)
  · intro len sent hgood hnext hfail
    have hk : j < nchunks s.cfg (payloadLen s.cfg srcB) := (payloadLen_padB hb).symm ▸ hj
    have hbusy := countP_chunkFailCommand_isBusy (c := s.cfg) (src := srcB) (k := j) s.fb s.cur 0x24 (min m len) ok sent
    have hpins (p : Pins) : (pinsAfter p (chunkFailCommand s.cfg s.fb s.cur 0x24 srcB j (min m len) ok sent)).rst = p.rst := by
      rw [pinsAfter_chunkFailCommand]
    have hmore : s.env.xferIn.drop ((first ++
        chunkFailCommand s.cfg s.fb s.cur 0x24 srcB j (min m len) ok sent).countP isXfer) = more := by
      rw [List.countP_append, countP_chunkFailCommand_isXfer _ _ _ _ _ _ hk]
      exact List.drop_add_one_eq_tail_drop.trans (congrArg List.tail hnext)
    obtain ⟨hgoodLast, hreadyLast⟩ := draws_past_failed (sent := sent) hbusy hmore hlast hready
    exact runs_answeredFailed hfsm hpins hbusy hmore
      ((hs.reaches_write hlong (goodXfers_mono hgood (Nat.le_add_right _ _))).failChunk hk hgood hnext hfail
        hgoodLast hreadyLast)

end Sys2Proof.Proofs
end

section
/-! PROOFS. The family of spec/42_palette.md: the nearest colour (O54), the role binding (O55), ENCODE (O56), and what a draw
makes of the roles: its fault (O50) and its whole run (O51). -/

namespace Sys2Proof.Proofs

open Sys2Proof.Machine Sys2Proof.Laws

/-! ## The nearest colour (42_palette.md R210, R211) -/

theorem sqDiff_cast (a b : Byte) : (sqDiff a b : Int) = ((a.toNat : Int) - b.toNat) ^ 2 := by
  rw [sqDiff, Nat.cast_pow, Int.natAbs_sq]

theorem sqDiff_le (a b : Byte) : sqDiff a b ≤ 65025 := by
  have hdiff : ((a.toNat : Int) - b.toNat).natAbs ≤ 255 := by omega
  exact Nat.pow_le_pow_left hdiff 2

/-- `k` is the lowest position of the list with the smallest distance to `c` (R211). -/
def IsNearest (c : RGB) (l : List RGB) (k : Nat) : Prop :=
  ∃ q, l[k]? = some q ∧ ∀ i r, l[i]? = some r → colourDist c q ≤ colourDist c r ∧ (i < k → colourDist c q < colourDist c r)

/-- A list with one more entry, read at any position. -/
theorem getElem?_concat_eq_some {α : Type} {l : List α} {p r : α} {i : Nat} (h : (l ++ [p])[i]? = some r) :
    l[i]? = some r ∨ i = l.length ∧ p = r := by
  rcases Nat.lt_trichotomy i l.length with hi | rfl | hi
  · rw [List.getElem?_append_left hi] at h; exact .inl h
  · exact .inr ⟨rfl, by simpa using h⟩
  · rw [List.getElem?_eq_none (by rw [List.length_append, List.length_singleton]; omega)] at h; cases h

/-- The scan, from the best position `k` of the part `done` it has been through. -/
theorem isNearest_nearestFrom {c q : RGB} {k : Nat} (l : List RGB) (done : List RGB) (hq : done[k]? = some q)
    (hbest : ∀ i r, done[i]? = some r → colourDist c q ≤ colourDist c r ∧ (i < k → colourDist c q < colourDist c r)) :
    IsNearest c (done ++ l) (nearestFrom c k (colourDist c q) done.length l) := by
  induction l generalizing q k done with
  | nil => rw [List.append_nil]; exact ⟨q, hq, hbest⟩
  | cons p l ih =>
    have hsplit : done ++ p :: l = (done ++ [p]) ++ l := by simp
    have hlen : done.length + 1 = (done ++ [p]).length := by simp
    have hk : k < done.length := (List.getElem?_eq_some_iff.mp hq).1
    rw [nearestFrom, hsplit, hlen]
    split
    · next hcloser =>
      refine ih _ (by simp) fun i r hi => ?_
      rcases getElem?_concat_eq_some hi with hi | ⟨rfl, rfl⟩
      · have hle := (hbest i r hi).1
        exact ⟨by omega, fun _ => by omega⟩
      · exact ⟨Nat.le_refl _, fun hlt => absurd hlt (Nat.lt_irrefl _)⟩
    · next hfar =>
      refine ih _ (by rw [List.getElem?_append_left hk, hq]) fun i r hi => ?_
      rcases getElem?_concat_eq_some hi with hi | ⟨rfl, rfl⟩
      · exact hbest i r hi
      · exact ⟨by omega, fun hlt => by omega⟩

theorem isNearest_nearest (c : RGB) {l : List RGB} (h : l ≠ []) : IsNearest c l (nearest c l) := by
  cases l with
  | nil => exact absurd rfl h
  | cons q l =>
    refine isNearest_nearestFrom l [q] rfl fun i r hi => ?_
    obtain ⟨rfl, rfl⟩ : i = 0 ∧ q = r := by simpa using getElem?_concat_eq_some (l := []) hi
    exact ⟨Nat.le_refl _, fun hlt => absurd hlt (Nat.lt_irrefl _)⟩

/-- Settles O54: each component's square is the square of the integer difference, and the scan keeps the lowest minimum. -/
theorem nearestIsLowestMinimum : Obligations.NearestIsLowestMinimum := by
  refine ⟨fun p q => ⟨?_, ?_⟩, fun c l h => isNearest_nearest c h⟩
  · simp only [colourDist, Nat.cast_add, sqDiff_cast]
  · have hr := sqDiff_le p.r q.r
    have hg := sqDiff_le p.g q.g
    have hb := sqDiff_le p.b q.b
    rw [colourDist]; omega

/-! ## The role binding (R212) -/

theorem three_get?_set {α : Type} (t : Three α) (j : Nat) {k : Nat} (v : α) (h : k < 3) :
    (t.set k v).get? j = if j = k then some v else t.get? j := by
  match k, h with
  | 0, _ | 1, _ | 2, _ =>
    match j with
    | 0 | 1 | 2 | _ + 3 => rfl

/-- Taking a position out of those that remain. -/
theorem perm_cons_filter_ne {l : List Nat} {j : Nat} (hnodup : l.Nodup) (hj : j ∈ l) :
    l.Perm (j :: l.filter (· ≠ j)) := by
  have herase : l.erase j = l.filter (· ≠ j) := by
    rw [hnodup.erase_eq_filter]; exact List.filter_congr fun i _ => Bool.eq_iff_iff.mpr (by simp)
  rw [← herase]
  exact List.perm_cons_erase hj

/-- Of the positions `remaining` of the palette, `j` is the nearest to `c`; of two equally near ones, the lower (R211). -/
structure Claims (c : RGB) (pal : List RGB) (remaining : List Nat) (j : Nat) : Prop where
  mem : j ∈ remaining
  nearest : ∀ i ∈ remaining, i ≠ j → ∀ q r, pal[j]? = some q → pal[i]? = some r →
    if j < i then colourDist c q ≤ colourDist c r else colourDist c q < colourDist c r

theorem claimRole_claims (rgb : Three RGB) {pal : List RGB} {remaining : List Nat} (role : Role)
    (hsorted : remaining.Pairwise (· < ·)) (hne : remaining ≠ []) (hpal : ∀ i ∈ remaining, i < pal.length) :
    ∃ j, claimRole rgb pal remaining role = some j ∧ Claims (rgb.ofRole role) pal remaining j := by
  have hcolours : remaining.filterMap (fun i => pal[i]?) = remaining.map (pal.getD · default) := by
    rw [← List.filterMap_eq_map]
    exact List.filterMap_congr fun i hi => by simp [hpal i hi]
  obtain ⟨q, hq, hbest⟩ := isNearest_nearest (rgb.ofRole role) (l := remaining.filterMap fun i => pal[i]?)
    (by simpa [hcolours] using hne)
  rw [claimRole]
  generalize nearest (rgb.ofRole role) (remaining.filterMap fun i => pal[i]?) = k at hq hbest
  rw [hcolours] at hq hbest
  rw [List.getElem?_map, Option.map_eq_some_iff] at hq
  obtain ⟨j, hj, rfl⟩ := hq
  refine ⟨j, hj, List.mem_of_getElem? hj, fun i hi hij q r hqj hri => ?_⟩
  obtain ⟨n, hn⟩ := List.getElem?_of_mem hi
  obtain ⟨hle, hlt⟩ := hbest n r (by simp [hn, hri])
  rw [List.getD_eq_getElem?_getD, hqj, Option.getD_some] at hle hlt
  split
  · exact hle
  · next hji =>
    refine hlt (Nat.lt_of_not_le fun hkn => ?_)
    obtain ⟨hk, rfl⟩ := List.getElem?_eq_some_iff.mp hj
    obtain ⟨hnlen, rfl⟩ := List.getElem?_eq_some_iff.mp hn
    rcases Nat.lt_or_eq_of_le hkn with hkn | rfl
    · exact hji (List.pairwise_iff_getElem.mp hsorted k n hk hnlen hkn)
    · exact hij rfl

theorem bindFrom_cons {rgb : Three RGB} {pal : List RGB} {role : Role} {roles : List Role} {remaining : List Nat}
    {b : Three Role} {j : Nat} (h : claimRole rgb pal remaining role = some j) :
    bindFrom rgb pal (role :: roles) remaining b =
      bindFrom rgb pal roles (remaining.filter (· ≠ j)) (b.set j role) := by
  rw [bindFrom, h]

/-- A claim from what is left of the three positions of an exact palette leaves one position fewer. -/
theorem claimRole_exact (rgb : Three RGB) (e0 e1 e2 : RGB) (role : Role) {l : List Nat} {n : Nat}
    (hsub : l.Sublist [0, 1, 2]) (hlen : l.length = n + 1) :
    ∃ j, claimRole rgb [e0, e1, e2] l role = some j ∧ Claims (rgb.ofRole role) [e0, e1, e2] l j ∧
      l.Perm (j :: l.filter (· ≠ j)) ∧ (l.filter (· ≠ j)).length = n := by
  have hpal : ∀ i ∈ [0, 1, 2], i < [e0, e1, e2].length := show ∀ i ∈ [0, 1, 2], i < 3 by decide
  have hsorted : l.Pairwise (· < ·) := (show [0, 1, 2].Pairwise (· < ·) by decide).sublist hsub
  obtain ⟨j, hj, hclaims⟩ := claimRole_claims rgb role hsorted (List.ne_nil_of_length_eq_add_one hlen)
    fun i hi => hpal i (hsub.subset hi)
  have hperm := perm_cons_filter_ne (hsorted.imp Nat.ne_of_lt) hclaims.mem
  exact ⟨j, hj, hclaims, hperm, Nat.succ_inj.mp (hperm.length_eq.symm.trans hlen)⟩

/-- Settles O55: three claims one after the other, each from the positions the claims before it left. -/
theorem bindRolesClaimsNearest : Obligations.BindRolesClaimsNearest := by
  intro rgb e0 e1 e2 b
  obtain ⟨jw, hw, hwClaims, hwPerm, hwLen⟩ := claimRole_exact rgb e0 e1 e2 .white (List.Sublist.refl _) rfl
  obtain ⟨jb, hb, hbClaims, hbPerm, hbLen⟩ := claimRole_exact rgb e0 e1 e2 .black List.filter_sublist hwLen
  obtain ⟨jh, hh, hhClaims, hhPerm, hhLen⟩ := claimRole_exact rgb e0 e1 e2 .highlight
    (List.filter_sublist.trans List.filter_sublist) hbLen
  rw [List.length_eq_zero_iff.mp hhLen] at hhPerm
  have hbind : bindRoles rgb [e0, e1, e2] b = ((b.set jw .white).set jb .black).set jh .highlight := by
    rw [bindRoles, bindFrom_cons hw, bindFrom_cons hb, bindFrom_cons hh, bindFrom]
  have hperm : [jw, jb, jh].Perm [0, 1, 2] := (hwPerm.trans (.cons jw (hbPerm.trans (.cons jb hhPerm)))).symm
  obtain ⟨⟨hwb, hwh⟩, hbh⟩ : (jw ≠ jb ∧ jw ≠ jh) ∧ jb ≠ jh := by
    simpa using hperm.nodup_iff.mpr (by decide)
  have hlt : ∀ i ∈ [0, 1, 2], i < 3 := by decide
  have hbMem : jb ∈ [0, 1, 2] := hperm.subset (by simp)
  have hhMem : jh ∈ [0, 1, 2] := hperm.subset (by simp)
  rw [hbind]
  refine ⟨jw, jb, jh, hperm, ?_, ?_, ?_, fun qw qb qh hqw hqb hqh => ⟨?_, ?_, ?_⟩⟩
  · rw [three_get?_set _ _ _ (hlt jh hhMem), if_neg hwh, three_get?_set _ _ _ (hlt jb hbMem), if_neg hwb,
      three_get?_set _ _ _ (hlt jw hwClaims.mem), if_pos rfl]
  · rw [three_get?_set _ _ _ (hlt jh hhMem), if_neg hbh, three_get?_set _ _ _ (hlt jb hbMem), if_pos rfl]
  · rw [three_get?_set _ _ _ (hlt jh hhMem), if_pos rfl]
  · exact hwClaims.nearest jb hbMem hwb.symm _ _ hqw hqb
  · exact hwClaims.nearest jh hhMem hwh.symm _ _ hqw hqh
  · exact hbClaims.nearest jh (List.mem_filter.mp hhClaims.mem).1 hbh.symm _ _ hqb hqh

/-! ## ENCODE (R213 to R217) -/

theorem three_get?_eq_none {α : Type} (t : Three α) {n : Nat} (h : 3 ≤ n) : t.get? n = none := by
  match n, h with
  | _ + 3, _ => rfl

theorem three_get?_isSome {α : Type} (t : Three α) {n : Nat} (h : n < 3) : ∃ v, t.get? n = some v := by
  match n, h with
  | 0, _ | 1, _ | 2, _ => exact ⟨_, rfl⟩

section Encode

variable {rgb : Three RGB} {b : Three Role} {src : Source} {x y : Nat}

theorem sourceContains_iff : sourceContains src x y = true ↔ src.x0 ≤ x ∧ x < src.x1 ∧ src.y0 ≤ y ∧ y < src.y1 := by
  simp [sourceContains, and_assoc]

theorem encodePixel_outside (h : ¬sourceContains src x y = true) : encodePixel rgb b src x y = some .white := if_neg h

/-- The exact path (R215). -/
theorem encodePixel_exact (h : sourceContains src x y = true) (hpal : src.pal.length = 3) :
    encodePixel rgb b src x y = (pixIndex src x y).bind b.get? := by
  rw [encodePixel, if_pos h, exactPalette, if_pos (decide_eq_true hpal)]

/-- The general path with a palette (R213, R214). -/
theorem encodePixel_general (h : sourceContains src x y = true) (hpal : src.pal.length ≠ 3) (hne : src.pal ≠ []) :
    encodePixel rgb b src x y = ((pixIndex src x y).bind fun i => src.pal[i]?).map (classify rgb) := by
  rw [encodePixel, if_pos h, exactPalette, if_neg (by simpa using hpal), if_neg (by simpa using hne)]

/-- The general path with colours (R213, R214). -/
theorem encodePixel_colour (h : sourceContains src x y = true) (hpal : src.pal = []) :
    encodePixel rgb b src x y = (pixColour src x y).map (classify rgb) := by
  rw [encodePixel, if_pos h, exactPalette, hpal]; rfl

/-- An index that names no colour, on either path (R216). -/
theorem encodePixel_reserved {n : Nat} (h : sourceContains src x y = true) (hne : src.pal ≠ [])
    (hn : pixIndex src x y = some n) (hres : src.pal.length ≤ n) : encodePixel rgb b src x y = none := by
  by_cases hpal : src.pal.length = 3
  · rw [encodePixel_exact h hpal, hn]; exact three_get?_eq_none b (by omega)
  · rw [encodePixel_general h hpal hne, hn, Option.bind_some, List.getElem?_eq_none hres]; rfl

end Encode

/-- CLASSIFY answers the role whose code is the nearest position of the role palette (R214). -/
theorem classify_code (rgb : Three RGB) (c : RGB) :
    (classify rgb c).code.toNat = nearest c [rgb.i0, rgb.i1, rgb.i2] := by
  obtain ⟨q, hq, -⟩ := isNearest_nearest c (l := [rgb.i0, rgb.i1, rgb.i2]) (by simp)
  have hlt : nearest c [rgb.i0, rgb.i1, rgb.i2] < 3 := (List.getElem?_eq_some_iff.mp hq).1
  unfold classify Three.toList
  generalize nearest c [rgb.i0, rgb.i1, rgb.i2] = k at hlt
  match k, hlt with
  | 0, _ | 1, _ | 2, _ => rfl

/-- Settles O56: outside, the exact path, and the two forms of the general path. -/
theorem encodeRule : Obligations.EncodeRule := by
  intro rgb b src x y
  refine ⟨fun hout => encodePixel_outside (mt sourceContains_iff.mp hout), fun hx0 hx1 hy0 hy1 => ?_⟩
  have hin : sourceContains src x y = true := sourceContains_iff.mpr ⟨hx0, hx1, hy0, hy1⟩
  refine ⟨fun n hpal hn => ?_, fun n hpal hne hn => ⟨fun q hq => ⟨classify rgb q, ?_, classify_code rgb q⟩, fun hres => ?_⟩,
    fun q hpal hq => ⟨classify rgb q, ?_, classify_code rgb q⟩⟩
  · have hexact : encodePixel rgb b src x y = b.get? n := by rw [encodePixel_exact hin hpal, hn]; rfl
    rw [hexact]
    exact ⟨fun h => by rw [h]; rfl, fun h => by rw [h]; rfl, fun h => by rw [h]; rfl, three_get?_eq_none b⟩
  · rw [encodePixel_general hin hpal hne, hn, Option.bind_some, hq]; rfl
  · exact encodePixel_reserved hin hne hn hres
  · rw [encodePixel_colour hin hpal, hq]; rfl

/-! ## The lines of FB_DRAW (43_framebuffer.md R236) -/

section Lines

variable {src : Source} {s : State}

theorem exec_fbDraw_start (hpc : s.seq.pc = 0) : exec (.fbDraw src) s = drawStart src s :=
  exec_of_stepAt _ s (.drawStart src) (by rw [hpc]; rfl) nofun

theorem exec_fbDraw_pixel {k : Nat} (hk : k < s.cfg.width * s.cfg.height) (hpc : s.seq.pc = k + 1) :
    exec (.fbDraw src) s = drawPixel src k s := by
  refine exec_of_stepAt _ s (.drawPixel src k) ?_ nofun
  rw [hpc, stepAt, drawStepAt, if_neg (Nat.succ_ne_zero k), if_pos (show k + 1 ≤ _ from hk), Nat.add_sub_cancel]

theorem exec_fbDraw_end (hpc : s.seq.pc = s.cfg.width * s.cfg.height + 1) : exec (.fbDraw src) s = drawEnd s := by
  refine exec_of_stepAt _ s .drawEnd ?_ nofun
  rw [hpc, stepAt, drawStepAt, if_neg (Nat.succ_ne_zero _), if_neg (by omega), if_pos rfl]

theorem drawPixel_role {k : Nat} {role : Role}
    (h : encodePixel s.roleRgb s.port.bind src (k % s.cfg.width) (k / s.cfg.width) = some role) :
    drawPixel src k s = .next { s with
      fb := s.fb.writePixel s.cfg (k % s.cfg.width) (k / s.cfg.width) role,
      ports := s.portsWithSeq { s.seq with pc := s.seq.pc + 1 } } := by
  simp only [drawPixel, h]; rfl

theorem drawPixel_fault {k : Nat}
    (h : encodePixel s.roleRgb s.port.bind src (k % s.cfg.width) (k / s.cfg.width) = none) :
    drawPixel src k s = .next (s.raiseFault .srcIndex) := by
  simp only [drawPixel, h]

theorem drawEnd_eq : drawEnd s = .next { s with
    fb := { s.fb with drawOwner := none }, ports := s.portsWithSeq Seq.idle,
    trace := s.trace ++ [.resp s.cur { code := .ok, xf := false, sq := false, data := .empty }] } := rfl

end Lines

/-- The place of a pixel in row-major order names it. -/
theorem rowMajor_mod_div {w x : Nat} (y : Nat) (hx : x < w) : (y * w + x) % w = x ∧ (y * w + x) / w = y := by
  constructor
  · rw [Nat.mul_add_mod_self_right, Nat.mod_eq_of_lt hx]
  · rw [Nat.mul_comm, Nat.mul_add_div (by omega), Nat.div_eq_of_lt hx, Nat.add_zero]

theorem rowMajor_lt {w h x y : Nat} (hx : x < w) (hy : y < h) : y * w + x < w * h :=
  calc y * w + x < y * w + w := by omega
    _ = (y + 1) * w := (Nat.succ_mul y w).symm
    _ ≤ h * w := Nat.mul_le_mul_right w hy
    _ = w * h := Nat.mul_comm h w

/-- Settles O50: the pixel's line finds no role. -/
theorem drawFaultsOnReservedIndex : Obligations.DrawFaultsOnReservedIndex := by
  intro src s x y n hx hy hpc hx0 hx1 hy0 hy1 hne hn hres
  obtain ⟨hmod, hdiv⟩ := rowMajor_mod_div y hx
  have hnone := encodePixel_reserved (rgb := s.roleRgb) (b := s.port.bind)
    (sourceContains_iff.mpr ⟨hx0, hx1, hy0, hy1⟩) hne hn hres
  rw [exec_fbDraw_pixel (rowMajor_lt hx hy) hpc, drawPixel_fault (by rw [hmod, hdiv, hnone]), ← fault_or_eq_ite]
  rfl

/-! ## A whole draw (R236) -/

/-- ENCODE gives a role for a pixel of a well-formed source whose index, if it has one, names a colour. -/
theorem encodePixel_isSome {rgb : Three RGB} {b : Three Role} {src : Source} {x y : Nat} (hwf : src.wf = true)
    (hidx : ∀ n, sourceContains src x y = true → pixIndex src x y = some n → n < src.pal.length) :
    ∃ role, encodePixel rgb b src x y = some role := by
  by_cases hin : sourceContains src x y = true
  · obtain ⟨-, hpix⟩ : src.rectOk = true ∧ src.pixOk = true := by simpa [Source.wf] using hwf
    have hplace : sourcePlace src x y < src.area := by
      obtain ⟨hx0, hx1, hy0, hy1⟩ := sourceContains_iff.mp hin
      exact rowMajor_lt (by omega) (by omega)
    by_cases hpal : src.pal = []
    · obtain ⟨hrgb, -⟩ : src.rgb.length = src.area ∧ src.idx = [] := by simpa [Source.pixOk, hpal] using hpix
      rw [encodePixel_colour hin hpal, pixColour, List.getElem?_eq_getElem (hrgb ▸ hplace)]
      exact ⟨_, rfl⟩
    · obtain ⟨hlen, -⟩ : src.idx.length = src.area ∧ src.rgb = [] := by simpa [Source.pixOk, hpal] using hpix
      have hn : pixIndex src x y = some (src.idx[sourcePlace src x y]'(hlen ▸ hplace)) := List.getElem?_eq_getElem _
      have hlt := hidx _ hin hn
      by_cases hthree : src.pal.length = 3
      · rw [encodePixel_exact hin hthree, hn]
        exact three_get?_isSome b (hthree ▸ hlt)
      · rw [encodePixel_general hin hthree hpal, hn, Option.bind_some, List.getElem?_eq_getElem hlt]
        exact ⟨_, rfl⟩
  · exact ⟨_, encodePixel_outside hin⟩

theorem withBit_and_mask {m : Byte} (hm : m ≠ 0) (v : Byte) (b : Bool) : decide (withBit v m b &&& m ≠ 0) = b := by
  cases b with
  | false =>
    have hzero : withBit v m false &&& m = 0 := by
      ext k hk
      simp [withBit]
    rw [hzero]; rfl
  | true =>
    have hself : withBit v m true &&& m = m := by
      ext k hk
      simp only [withBit, if_true, BitVec.getElem_and, BitVec.getElem_or]
      cases v[k] <;> cases m[k] <;> rfl
    rw [hself]; exact decide_eq_true hm

/-- A pixel just written has its role's pair (R230). -/
theorem pixelPair_writePixel_self {f : FrameBuf} {c : Cfg} {x y : Nat} (r : Role)
    (hb : Memory.wf (planeFill .black) f.black = true) (hh : Memory.wf (planeFill .hl) f.hl = true) :
    (f.writePixel c x y r).pixelPair c x y = rolePair r := by
  rw [FrameBuf.pixelPair, readByte_writePixel_black f c x y r hb, readByte_writePixel_hl f c x y r hh,
    withBit_and_mask (pixelMask_ne_zero x), withBit_and_mask (pixelMask_ne_zero x)]

/-- From the framebuffer `f0`, the first `k` pixels of the panel in row-major order have the pair of the role ENCODE gives
them, and nothing else of the framebuffer has changed. -/
structure Drawn (c : Cfg) (rgb : Three RGB) (b : Three Role) (src : Source) (f0 f : FrameBuf) (k : Nat) : Prop where
  blackWf : Memory.wf (planeFill .black) f.black = true
  hlWf : Memory.wf (planeFill .hl) f.hl = true
  race : f.race = f0.race
  uploadOwner : f.uploadOwner = f0.uploadOwner
  pixels : ∀ x y, x < c.width → y * c.width + x < k →
    ∃ role, encodePixel rgb b src x y = some role ∧ f.pixelPair c x y = rolePair role
  pads : ∀ x y, c.width ≤ x → x < 8 * c.bpr → y < c.height → f.pixelPair c x y = f0.pixelPair c x y
  outside : ∀ p a, c.planeSize ≤ a → f.readByte p a = f0.readByte p a

section Draw

variable {c : Cfg} {rgb : Three RGB} {b : Three Role} {src : Source}

theorem Drawn.start {f : FrameBuf} (hb : Memory.wf (planeFill .black) f.black = true)
    (hh : Memory.wf (planeFill .hl) f.hl = true) : Drawn c rgb b src f f 0 :=
  ⟨hb, hh, rfl, rfl, nofun, fun _ _ _ _ _ => rfl, fun _ _ _ => rfl⟩

/-- The next pixel drawn. -/
theorem Drawn.pixel {f0 f : FrameBuf} {k : Nat} {role : Role} (h : Drawn c rgb b src f0 f k) (hk : k < c.width * c.height)
    (hrole : encodePixel rgb b src (k % c.width) (k / c.width) = some role) :
    Drawn c rgb b src f0 (f.writePixel c (k % c.width) (k / c.width) role) (k + 1) := by
  have hpos : 0 < c.width := Nat.pos_of_mul_pos_right (Nat.zero_lt_of_lt hk)
  have hx : k % c.width < c.width := Nat.mod_lt k hpos
  have hy : k / c.width < c.height := Nat.div_lt_of_lt_mul hk
  have hwf := wf_writePixel f c (k % c.width) (k / c.width) role h.blackWf h.hlWf
  have other {x y : Nat} (hbpr : x / 8 < c.bpr) (hne : x ≠ k % c.width ∨ y ≠ k / c.width) :=
    pixelPair_writePixel_other (c := c) role h.blackWf h.hlWf (div8_lt_bpr hx) hbpr hne
  refine ⟨hwf.1, hwf.2, h.race, h.uploadOwner, fun x y hxw hlt => ?_, fun x y hxw hx8 hyh => ?_, fun p a ha => ?_⟩
  · obtain ⟨hmod, hdiv⟩ := rowMajor_mod_div y hxw
    rcases Nat.lt_succ_iff_lt_or_eq.mp hlt with hlt | rfl
    · rw [other (div8_lt_bpr hxw) (by_contra fun hsame => ?_)]
      · exact h.pixels x y hxw hlt
      · push Not at hsame
        have hplace := Nat.div_add_mod' k c.width
        rw [← hsame.1, ← hsame.2] at hplace
        omega
    · rw [hmod, hdiv] at hrole ⊢
      exact ⟨role, hrole, pixelPair_writePixel_self role h.blackWf h.hlWf⟩
  · rw [other (Nat.div_lt_of_lt_mul hx8) (.inl (by omega)), h.pads x y hxw hx8 hyh]
  · have hbelow := pixelIndex_lt (div8_lt_bpr hx) hy
    rw [readByte_writePixel_other _ _ _ _ _ _ _ (by omega), h.outside p a ha]

end Draw

/-- The state of a draw whose next line is pixel `k`, with the binding `b` and the framebuffer `f`. -/
def midDraw (s : State) (b : Three Role) (f : FrameBuf) (k : Nat) : State :=
  { s with fb := f, ports := s.ports.set s.cur { s.port with seq := { s.seq with pc := k + 1 }, bind := b } }

section Run

variable {src : Source} {s : State} {b : Three Role} {f : FrameBuf} {k : Nat} (hcur : s.curOk)
include hcur

theorem midDraw_port : (midDraw s b f k).port = { s.port with seq := { s.seq with pc := k + 1 }, bind := b } :=
  getD_set_self _ _ _ _ hcur

/-- A pixel's line takes the draw to the next pixel. -/
theorem exec_midDraw {role : Role} (hk : k < s.cfg.width * s.cfg.height)
    (hrole : encodePixel s.roleRgb b src (k % s.cfg.width) (k / s.cfg.width) = some role) :
    exec (.fbDraw src) (midDraw s b f k) =
      .next (midDraw s b (f.writePixel s.cfg (k % s.cfg.width) (k / s.cfg.width) role) (k + 1)) := by
  have hport := midDraw_port (b := b) (f := f) (k := k) hcur
  have hseq : (midDraw s b f k).seq = { s.seq with pc := k + 1 } := congrArg Port.seq hport
  rw [exec_fbDraw_pixel (s := midDraw s b f k) hk (by rw [hseq]),
    drawPixel_role (s := midDraw s b f k) (role := role) (by rw [hport]; exact hrole), State.portsWithSeq, hport, hseq]
  simp only [midDraw, List.set_set]

/-- The pixels' lines from the first on. -/
theorem runs_pixels (hb : Memory.wf (planeFill .black) f.black = true) (hh : Memory.wf (planeFill .hl) f.hl = true)
    (hroles : ∀ x y, x < s.cfg.width → y < s.cfg.height → ∃ role, encodePixel s.roleRgb b src x y = some role)
    (hk : k ≤ s.cfg.width * s.cfg.height) :
    ∃ f', Drawn s.cfg s.roleRgb b src f f' k ∧ Runs (.fbDraw src) (midDraw s b f 0) (midDraw s b f' k) := by
  induction k with
  | zero => exact ⟨f, .start hb hh, .refl _ _⟩
  | succ k ih =>
    obtain ⟨f', hdrawn, hruns⟩ := ih (by omega)
    have hpos : 0 < s.cfg.width := Nat.pos_of_mul_pos_right (Nat.zero_lt_of_lt hk)
    obtain ⟨role, hrole⟩ := hroles _ _ (Nat.mod_lt k hpos) (Nat.div_lt_of_lt_mul hk)
    exact ⟨_, hdrawn.pixel hk hrole, hruns.trans (.of_exec (exec_midDraw hcur hk hrole))⟩

/-- The last line answers, and keeps the binding. -/
theorem exec_midDraw_end : exec (.fbDraw src) (midDraw s b f (s.cfg.width * s.cfg.height)) = .next
    { s with
      fb := { f with drawOwner := none }, ports := s.ports.set s.cur { s.port with seq := Seq.idle, bind := b },
      trace := s.trace ++ [.resp s.cur { code := .ok, xf := false, sq := false, data := .empty }] } := by
  have hport := midDraw_port (b := b) (f := f) (k := s.cfg.width * s.cfg.height) hcur
  rw [exec_fbDraw_end (s := midDraw s b f _) (by rw [State.seq, hport]; rfl), drawEnd_eq, State.portsWithSeq, hport]
  simp only [midDraw, List.set_set]

end Run

/-- Settles O51: START, the pixels' lines, and END. -/
theorem fbDrawCompletes : Obligations.FbDrawCompletes := by
  intro src s hcur hpc hwf hb hh hidx bind
  have hstart : exec (.fbDraw src) s = .next (midDraw s bind { raceOnDraw s.fb with drawOwner := some s.cur } 0) := by
    have hbind : bind = if exactPalette src then bindRoles s.roleRgb src.pal s.port.bind else s.port.bind := by
      simp only [bind, exactPalette, decide_eq_true_eq]
    rw [exec_fbDraw_start hpc, hbind, midDraw, ← hpc]
    rfl
  have hroles (x y : Nat) (hx : x < s.cfg.width) (hy : y < s.cfg.height) :
      ∃ role, encodePixel s.roleRgb bind src x y = some role :=
    encodePixel_isSome hwf fun n => hidx x y n hx hy
  obtain ⟨f, hdrawn, hpixels⟩ := runs_pixels (b := bind) (f := { raceOnDraw s.fb with drawOwner := some s.cur }) hcur hb hh
    hroles le_rfl
  obtain ⟨k, hk⟩ := (Runs.of_exec hstart).trans (hpixels.trans (.of_exec (exec_midDraw_end hcur)))
  refine ⟨k, _, hk, rfl, hdrawn.uploadOwner, ?_, fun x y hx hy => hdrawn.pixels x y hx (rowMajor_lt hx hy), hdrawn.pads,
    hdrawn.outside⟩
  rw [Bool.decide_or]; exact hdrawn.race

end Sys2Proof.Proofs
end

section
/-! PROOFS. The family of spec/43_framebuffer.md: FB_SET then FB_GET (O47), FB_CLEAR (O48), the lines of FB_DRAW (O49), and what
a draw leaves whatever was there before it (O52). -/

namespace Sys2Proof.Proofs

open Sys2Proof.Machine Sys2Proof.Laws

/-! ## FB_SET then FB_GET (43_framebuffer.md R233) -/

/-- `role_of` undoes a role's pair (R230). -/
theorem roleOfPair_rolePair (r : Role) : roleOfPair (rolePair r) = some r := by cases r <;> rfl

theorem pixelPair_congr {f g : FrameBuf} (h : ∀ p k, g.readByte p k = f.readByte p k) (c : Cfg) (x y : Nat) :
    g.pixelPair c x y = f.pixelPair c x y := by
  simp only [FrameBuf.pixelPair, h]

theorem exec_fbSet_fb {x y : BitVec 12} {role : Role} {s t : State} (h : exec (.fbSet x y role) s = .next t) :
    t.fb = if inBounds s.cfg x.toNat y.toNat then (raceOnWrite s.fb s.cur).writePixel s.cfg x.toNat y.toNat role
      else s.fb := by
  cases (execFbSet_eq x y role s).symm.trans h; rfl

/-- Settles O47: in bounds FB_SET is the write of one pixel, whose pair FB_GET reads back as its role. -/
theorem setGetRoundTrip : Obligations.SetGetRoundTrip := by
  intro x y role s t hb hh hset
  have hfb := exec_fbSet_fb hset
  refine ⟨fun hin => ?_, fun hout p k => ?_⟩
  · rw [if_pos (inBounds_iff.mpr hin)] at hfb
    refine ⟨fun u hcfg hbytes => ?_, fun x' y' hx' _ hne => ?_⟩
    · have hpair : u.fb.pixelPair u.cfg x.toNat y.toNat = rolePair role := by
        rw [hcfg, pixelPair_congr hbytes, hfb]
        exact pixelPair_writePixel_self role hb hh
      exact ⟨_, exec_fbGet_role (hcfg ▸ hin) (hpair ▸ roleOfPair_rolePair role), rfl⟩
    · have hother : x' ≠ x.toNat ∨ y' ≠ y.toNat := by rwa [ne_eq, Prod.mk.injEq, not_and_or] at hne
      rw [hfb]
      exact pixelPair_writePixel_other (f := raceOnWrite s.fb s.cur) role hb hh (div8_lt_bpr hin.1) (div8_lt_bpr hx') hother
  · rw [hfb, if_neg (mt inBounds_iff.mp hout)]

/-! ## FB_CLEAR (R234, R235) -/

/-- Settles O48: the race check, and planes that list no cell. -/
theorem fbClearFillsPlanes : Obligations.FbClearFillsPlanes := by
  intro s
  refine ⟨(raceOnWrite s.fb s.cur).cleared, Seq.idle, rfl, execFbClear_eq s,
    fun k => ⟨readByte_cleared _ .black k, readByte_cleared _ .hl k⟩, ?_, rfl, rfl, fun u v _ hclear => ?_⟩
  · rw [raceOnWrite_eq]; rfl
  · cases (execFbClear_eq u).symm.trans hclear; exact ⟨rfl, rfl⟩

/-! ## The lines of FB_DRAW (R236) -/

/-- The role binding a draw works with: on the exact path BIND_ROLES's, else the port's as it was (R212, R213). -/
def drawBinding (src : Source) (s : State) : Three Role :=
  if src.pal.length = 3 then bindRoles s.roleRgb src.pal s.port.bind else s.port.bind

/-- The framebuffer after the START line of port `p`: the race check (20_memory.md R76) and the owner. -/
def drawOpened (f : FrameBuf) (p : Nat) : FrameBuf := { raceOnDraw f with drawOwner := some p }

/-- The START line takes a draw to its first pixel. -/
theorem exec_fbDraw_first {src : Source} {s : State} (hpc : s.seq.pc = 0) :
    exec (.fbDraw src) s = .next (midDraw s (drawBinding src s) (drawOpened s.fb s.cur) 0) := by
  have hbind : drawBinding src s = if exactPalette src then bindRoles s.roleRgb src.pal s.port.bind else s.port.bind := by
    simp only [drawBinding, exactPalette, decide_eq_true_eq]
  rw [exec_fbDraw_start hpc, hbind, midDraw, ← hpc]; rfl

theorem drawOpened_eq (f : FrameBuf) (p : Nat) : drawOpened f p =
    { f with race := f.race || decide (f.drawOwner ≠ none ∨ f.uploadOwner ≠ none), drawOwner := some p } := by
  rw [Bool.decide_or]; rfl

/-- Settles O49: START, the line of a pixel at its place in row-major order, and END. -/
theorem fbDrawLines : Obligations.FbDrawLines := by
  intro src s
  refine ⟨fun hpc => ?_, fun x y role hx hy hpc hrole => ?_, fun hpc => ?_⟩
  · rw [exec_fbDraw_first hpc, midDraw, drawOpened_eq]; rfl
  · obtain ⟨hmod, hdiv⟩ := rowMajor_mod_div y hx
    rw [exec_fbDraw_pixel (rowMajor_lt hx hy) hpc, drawPixel_role (by rw [hmod, hdiv, hrole]), hmod, hdiv]
  · rw [exec_fbDraw_end hpc, drawEnd_eq]

/-! ## A draw overwrites (R237) -/

/-- The running port stands at pixel `k` of a draw whose source has no role for it. -/
structure FaultsAt (src : Source) (k : Nat) (s : State) : Prop where
  curOk : s.curOk
  inPanel : k < s.cfg.width * s.cfg.height
  pc : s.seq.pc = k + 1
  noRole : encodePixel s.roleRgb s.port.bind src (k % s.cfg.width) (k / s.cfg.width) = none

section Faults

variable {src : Source} {k : Nat} {s t : State}

theorem raiseFault_port (hcur : s.curOk) (r : Fault) :
    (s.raiseFault r).port = { s.port with seq := { s.seq with op := .stopped } } :=
  getD_set_self _ _ _ _ hcur

/-- A fault leaves the port at the pixel that raised it. -/
theorem FaultsAt.raiseFault (h : FaultsAt src k s) (r : Fault) : FaultsAt src k (s.raiseFault r) where
  curOk := h.curOk.trans_eq (List.length_set).symm
  inPanel := h.inPanel
  pc := by rw [State.seq, raiseFault_port h.curOk]; exact h.pc
  noRole := by rw [raiseFault_port h.curOk]; exact h.noRole

/-- A draw that has come to such a pixel is stopped after every further line. -/
theorem FaultsAt.stopped (h : FaultsAt src k s) {n : Nat} (hrun : execN (.fbDraw src) (n + 1) s = .next t) :
    t.seq.op = .stopped := by
  induction n generalizing s with
  | zero =>
    rw [execN, exec_fbDraw_pixel h.inPanel h.pc, drawPixel_fault h.noRole] at hrun
    cases hrun
    rw [State.seq, raiseFault_port h.curOk]
  | succ n ih =>
    rw [execN, exec_fbDraw_pixel h.inPanel h.pc, drawPixel_fault h.noRole] at hrun
    exact ih (h.raiseFault _) hrun

end Faults

section Run

variable {src : Source} {s t : State} {b : Three Role} {f : FrameBuf} {k : Nat} (hcur : s.curOk)
  (hb : Memory.wf (planeFill .black) f.black = true) (hh : Memory.wf (planeFill .hl) f.hl = true)
include hcur hb hh

/-- Pixels that all have a role take one line each. -/
theorem execN_pixels (hk : k ≤ s.cfg.width * s.cfg.height)
    (hroles : ∀ j < k, encodePixel s.roleRgb b src (j % s.cfg.width) (j / s.cfg.width) ≠ none) :
    ∃ f', Drawn s.cfg s.roleRgb b src f f' k ∧ execN (.fbDraw src) k (midDraw s b f 0) = .next (midDraw s b f' k) := by
  induction k with
  | zero => exact ⟨f, .start hb hh, rfl⟩
  | succ k ih =>
    obtain ⟨f', hdrawn, hrun⟩ := ih (by omega) fun j hj => hroles j (by omega)
    obtain ⟨role, hrole⟩ := Option.ne_none_iff_exists'.mp (hroles k (by omega))
    have hnext := exec_midDraw (f := f') hcur hk hrole
    exact ⟨_, hdrawn.pixel hk hrole, execN_trans _ k 1 _ _ _ hrun (by rw [execN, hnext]; rfl)⟩

/-- A draw that ends idle has met no pixel without a role: the first such would have stopped it. -/
theorem roles_of_ends_idle
    (hrun : execN (.fbDraw src) (s.cfg.width * s.cfg.height + 1) (midDraw s b f 0) = .next t) (hidle : t.seq.op = .idle) :
    ∀ k < s.cfg.width * s.cfg.height, encodePixel s.roleRgb b src (k % s.cfg.width) (k / s.cfg.width) ≠ none := by
  intro k
  induction k using Nat.strong_induction_on with
  | _ k before =>
    intro hk hnone
    obtain ⟨f', -, hpixels⟩ := execN_pixels hcur hb hh hk.le fun j hj => before j hj (by omega)
    have hport := midDraw_port (b := b) (f := f') (k := k) hcur
    have hfaults : FaultsAt src k (midDraw s b f' k) :=
      ⟨hcur.trans_eq List.length_set.symm, hk, by rw [State.seq, hport], by rw [hport]; exact hnone⟩
    obtain ⟨n, hn⟩ : ∃ n, s.cfg.width * s.cfg.height + 1 = k + (n + 1) := ⟨s.cfg.width * s.cfg.height - k, by omega⟩
    rw [hn, execN_add, hpixels] at hrun
    rw [hfaults.stopped hrun] at hidle
    cases hidle

/-- What a draw whose pixels all have a role leaves: every pixel of the panel has its role's pair. -/
theorem pixelPair_of_drawn
    (hroles : ∀ k < s.cfg.width * s.cfg.height,
      encodePixel s.roleRgb b src (k % s.cfg.width) (k / s.cfg.width) ≠ none)
    (hrun : execN (.fbDraw src) (s.cfg.width * s.cfg.height + 1) (midDraw s b f 0) = .next t) {x y : Nat}
    (hx : x < s.cfg.width) (hy : y < s.cfg.height) :
    (encodePixel s.roleRgb b src x y).map rolePair = some (t.fb.pixelPair s.cfg x y) := by
  obtain ⟨f', hdrawn, hpixels⟩ := execN_pixels hcur hb hh le_rfl hroles
  rw [execN_add, hpixels] at hrun
  simp only [execN, exec_midDraw_end hcur] at hrun
  cases hrun
  obtain ⟨role, hrole, hpair⟩ := hdrawn.pixels x y hx (rowMajor_lt hx hy)
  rw [hrole]
  exact congrArg some hpair.symm

end Run

/-- A draw alone is its START line and a run from the first pixel. -/
theorem execN_fbDraw {src : Source} {s : State} (hpc : s.seq.pc = 0) (n : Nat) : execN (.fbDraw src) (n + 1) s =
    execN (.fbDraw src) n (midDraw s (drawBinding src s) (drawOpened s.fb s.cur) 0) := by
  rw [execN, exec_fbDraw_first hpc]

/-- Settles O52: both draws work with one binding, and so write one role at each pixel. -/
theorem drawOverwrites : Obligations.DrawOverwrites := by
  intro src s t t' f hcur hpc hb hh hb' hh' hrun hrun' hidle x y hx hy
  rw [execN_fbDraw hpc] at hrun
  have hsecond : execN (.fbDraw src) (s.cfg.width * s.cfg.height + 1)
      (midDraw s (drawBinding src s) (drawOpened f s.cur) 0) = .next t' :=
    (execN_fbDraw (s := { s with fb := f }) hpc _).symm.trans hrun'
  have hroles := roles_of_ends_idle (f := drawOpened s.fb s.cur) hcur hb hh hrun hidle
  have hfirst := pixelPair_of_drawn (f := drawOpened s.fb s.cur) hcur hb hh hroles hrun hx hy
  exact Option.some.inj (hfirst.symm.trans (pixelPair_of_drawn (f := drawOpened f s.cur) hcur hb' hh' hroles hsecond hx hy))

end Sys2Proof.Proofs
end

section
/-! PROOFS. The family of spec/60_exceptions.md: the flags of a refusal (O20), what changes the error registers (O31), the
illegal configuration (O6), the illegal request (O9) and the DISPLAY too long (O38). -/

namespace Sys2Proof.Proofs

open Sys2Proof.Machine Sys2Proof.Laws

/-! ## Steps that answer without a step list -/

/-- Between `s` and `t` the error registers stay, and the response given, if any, has both flags 0. -/
structure AnswersUnflagged (s t : State) : Prop where
  err : t.err = s.err
  trace : t.trace = s.trace ∨ ∃ r : Response, t.trace = s.trace ++ [.resp s.cur r] ∧ r.xf = false ∧ r.sq = false

/-- What an instruction does is its micro-step, or an answer with both flags 0 that logs nothing: DISPLAY's length refusal and
the requests of one step. -/
theorem exec_micro_or_unflagged {i : Instr} {s t : State} (h : exec i s = .next t) :
    (∃ m, stepAt s.cfg i s.seq.pc = some m ∧ runMicro m s = .next t) ∨ AnswersUnflagged s t := by
  rcases exec_cases i s with ⟨m, hm, he⟩ | ⟨b, hl, -, -, -, he⟩ | ⟨-, he⟩ | ⟨x, y, r, -, he⟩ | ⟨x, y, -, he⟩ | ⟨-, he⟩ |
    ⟨-, he⟩ <;> rw [he] at h
  · exact .inl ⟨m, hm, h⟩
  · cases h; exact .inr ⟨rfl, .inr ⟨_, rfl, rfl, rfl⟩⟩
  · cases h; exact .inr ⟨rfl, .inr ⟨_, rfl, rfl, rfl⟩⟩
  · rw [execFbSet_eq] at h; cases h; exact .inr ⟨rfl, .inr ⟨_, rfl, rfl, rfl⟩⟩
  · obtain ⟨-, _, -, rfl⟩ | ⟨-, -, rfl⟩ | ⟨-, _, rfl⟩ := execFbGet_next x y s t h
    · exact .inr ⟨rfl, .inr ⟨_, rfl, rfl, rfl⟩⟩
    · exact .inr ⟨rfl, .inl rfl⟩
    · exact .inr ⟨rfl, .inr ⟨_, rfl, rfl, rfl⟩⟩
  · rw [execFbClear_eq] at h; cases h; exact .inr ⟨rfl, .inr ⟨_, rfl, rfl, rfl⟩⟩
  · cases h

/-! ## Refusals have no flags (O20) -/

/-- A trace grows by one last event only. -/
theorem last_event_unique {s t : State} {e e' : Event} (h : t.trace = s.trace ++ [e]) (h' : t.trace = s.trace ++ [e']) :
    e = e' :=
  List.singleton_inj.mp (List.append_cancel_left (h.symm.trans h'))

theorem AnswersUnflagged.flags {s t : State} (h : AnswersUnflagged s t) {p : Nat} {r : Response}
    (htrace : t.trace = s.trace ++ [.resp p r]) : r.xf = false ∧ r.sq = false := by
  obtain hsame | ⟨r', hresp, hflags⟩ := h.trace
  · simp [hsame] at htrace
  · cases last_event_unique hresp htrace
    exact hflags

/-- The micro-steps that respond are EXIT, the last line of a channel request and END of FB_DRAW: all with code OK. -/
theorem runMicro_response_ok {m : Micro} {s t : State} (h : runMicro m s = .next t) {p : Nat} {r : Response}
    (htrace : t.trace = s.trace ++ [.resp p r]) : r.code = .ok := by
  have hnext := runMicro_next m s t h
  have silent (hsame : t.trace = s.trace) : False := by simp [hsame] at htrace
  have last {e : Event} (he : t.trace = s.trace ++ [e]) : e = .resp p r := last_event_unique he htrace
  cases m with
  | exit _ => obtain ⟨-, rfl⟩ := hnext; cases last rfl; rfl
  | respondSent | drawEnd => cases hnext; cases last rfl; rfl
  | acquire =>
    obtain ⟨-, rfl⟩ | ⟨-, rfl⟩ := hnext
    · cases last rfl
    · cases silent rfl
  | release | releaseCmd => obtain ⟨-, rfl⟩ := hnext; cases last rfl
  | sampleBusy => obtain ⟨_, _, -, -, rfl⟩ := hnext; cases last rfl
  | xferOp _ _ | xferChunk _ _ _ => obtain ⟨_, _, _, -, -, -, rfl⟩ := hnext; cases last rfl
  | pin _ _ | delay _ | pollDelay | logXfer _ => cases hnext; cases last rfl
  | entry _ => obtain ⟨-, -, rfl⟩ | ⟨-, -, rfl⟩ | ⟨-, rfl⟩ := hnext <;> cases silent rfl
  | drawPixel _ _ => obtain ⟨_, -, rfl⟩ | ⟨-, rfl⟩ := hnext <;> cases silent rfl
  | startRefresh | openWindow | closeWindow | ret | drawStart _ => cases hnext; cases silent rfl

theorem exec_refusal_unflagged {i : Instr} {s t : State} (h : exec i s = .next t) {p : Nat} {r : Response}
    (htrace : t.trace = s.trace ++ [.resp p r]) (hcode : r.code ≠ .ok) : r.xf = false ∧ r.sq = false := by
  rcases exec_micro_or_unflagged h with ⟨m, -, hrun⟩ | hanswer
  · exact absurd (runMicro_response_ok hrun htrace) hcode
  · exact hanswer.flags htrace

/-- Settles O20: a micro-step responds with OK, and every other answer of a step has both flags 0. -/
theorem refusalsHaveNoFlags : Obligations.RefusalsHaveNoFlags := by
  intro s t p r h htrace hcode
  obtain ⟨e, p', hstep⟩ := step_from_choice s
  rcases hstep with h' | ⟨-, h' | h' | ⟨i, h'⟩ | ⟨i, -, h'⟩⟩ <;> rw [h'] at h
  · cases h; simp at htrace
  · cases h; simp at htrace
  · cases h
    cases last_event_unique (respond_trace _ (refuseResp .illegal .empty)) htrace
    exact ⟨rfl, rfl⟩
  · exact exec_refusal_unflagged h htrace hcode
  · exact exec_refusal_unflagged h htrace hcode

/-! ## The error registers (O31) -/

/-- A micro-step other than LOG_XFER leaves the error registers (60_exceptions.md R265). -/
theorem runMicro_err {m : Micro} {s t : State} (h : runMicro m s = .next t) (hlog : ∀ what, m ≠ .logXfer what) :
    t.err = s.err := by
  have hnext := runMicro_next m s t h
  cases m with
  | logXfer what => exact absurd rfl (hlog what)
  | entry _ => obtain ⟨-, -, rfl⟩ | ⟨-, -, rfl⟩ | ⟨-, rfl⟩ := hnext <;> rfl
  | acquire => obtain ⟨-, rfl⟩ | ⟨-, rfl⟩ := hnext <;> rfl
  | drawPixel _ _ => obtain ⟨_, -, rfl⟩ | ⟨-, rfl⟩ := hnext <;> rfl
  | release | releaseCmd | exit _ => obtain ⟨-, rfl⟩ := hnext; rfl
  | sampleBusy => obtain ⟨_, _, -, -, rfl⟩ := hnext; rfl
  | xferOp _ _ | xferChunk _ _ _ => obtain ⟨_, _, _, -, -, -, rfl⟩ := hnext; rfl
  | pin _ _ | delay _ | pollDelay | startRefresh | openWindow | closeWindow | respondSent | ret | drawStart _ | drawEnd =>
    cases hnext; rfl

/-- Settles O31: of all that an instruction can do, only its LOG_XFER line touches the registers. -/
theorem errorRegistersOnlyByLog : Obligations.ErrorRegistersOnlyByLog := by
  intro i s t h hchanged
  rcases exec_micro_or_unflagged h with ⟨m, hm, hrun⟩ | hanswer
  · by_cases hlog : ∃ what, m = .logXfer what
    · obtain ⟨what, rfl⟩ := hlog
      cases runMicro_next _ s t hrun
      exact ⟨what, hm, rfl, by cases what <;> rfl⟩
    · exact absurd (runMicro_err hrun (not_exists.mp hlog)) hchanged
  · exact absurd hanswer.err hchanged

/-! ## The illegal configuration (O6) -/

/-- The bounds of 00_scope.md R6. -/
theorem cfg_legal_iff (c : Cfg) : c.legal = true ↔
    1 ≤ c.width ∧ c.width ≤ 4096 ∧ 1 ≤ c.height ∧ c.height ≤ 4096 ∧ 1 ≤ c.xferLimit ∧ 1 ≤ c.nPorts ∧
      10000 ≤ c.tSettle ∧ c.tSettle ≤ 200000 ∧ 200 ≤ c.tAct := by
  simp only [Cfg.legal, Bool.and_eq_true, decide_eq_true_eq, and_assoc]

theorem construct_eq_none_iff (c : Cfg) : State.construct c = none ↔ ¬c.legal = true := by
  rw [State.construct, ite_eq_right_iff, imp_iff_not (Option.some_ne_none _)]

/-- Settles O6: the check of construction is R6's. -/
theorem illegalConfigGivesNoInstance : Obligations.IllegalConfigGivesNoInstance := by
  intro c
  rw [construct_eq_none_iff, cfg_legal_iff]

/-! ## The illegal request (O9) -/

/-- The illegal request leaves the inbox and its port stays idle (60_exceptions.md R263). -/
theorem respondIllegal_eq {u : State} (hcur : u.curOk) {r : Request} {rest : List Request}
    (hinbox : u.port.inbox = r :: rest) : u.respondIllegal = { u with
      ports := u.ports.set u.cur { seq := Seq.idle, bind := u.port.bind, inbox := rest },
      trace := u.trace ++ [.resp u.cur { code := .illegal, xf := false, sq := false, data := .empty }] } := by
  have hpop : u.popInbox.port = { u.port with inbox := rest } :=
    (setPort_port u _ hcur).trans (by rw [hinbox]; rfl)
  have hports : u.respondIllegal.ports = u.ports.set u.cur { u.popInbox.port with seq := Seq.idle } := set_cur_twice u _ _
  rw [hpop] at hports
  exact congrArg (fun l => ({ u with
    ports := l, trace := u.trace ++ [.resp u.cur (refuseResp .illegal .empty)] } : State)) hports

theorem fetchPort_refuses {u : State} {r : Request} {rest : List Request} {e : DecodeError} (h : u.seq.op = .idle)
    (hinbox : u.port.inbox = r :: rest) (hdecode : decode (.request r.word r.blocks) = .error e) :
    fetchPort u = .rest u.respondIllegal := by
  unfold fetchPort; rw [h, hinbox]; simp only [hdecode]

/-- Settles O9: the decoder's error is the answer, before any micro-step. -/
theorem illegalRequestOnlyResponds : Obligations.IllegalRequestOnlyResponds := by
  intro s v p r rest e hdraw hlt hop hinbox hdecode
  obtain ⟨env, rfl⟩ : ∃ env, v = { s with env := env } := ⟨v.env, by
    have hsnd := drawPort_snd s
    rwa [hdraw] at hsnd⟩
  let u : State := { s with env := env, cur := p }
  have hfetch : fetch s = fetchPort u := by rw [fetch, hdraw]; exact if_pos hlt
  have hstep : step s = .next u.respondIllegal :=
    step_of_fetch_rest (hfetch.trans (fetchPort_refuses hop hinbox hdecode))
  have hcur : u.curOk := hlt
  exact ⟨Seq.idle, rfl, hstep.trans (congrArg Host.Outcome.next (respondIllegal_eq hcur hinbox))⟩

/-! ## The DISPLAY too long (O38) -/

theorem tooLong_iff {c : Cfg} {b h : List Byte} :
    tooLong c b h = true ↔ c.planeSize < b.length ∨ c.planeSize < h.length := by
  rw [tooLong, Bool.or_eq_true, decide_eq_true_eq, decide_eq_true_eq]

/-- Settles O38: the length check answers before ENTRY, whoever owns the FSM. -/
theorem displayTooLongRefused : Obligations.DisplayTooLongRefused := by
  intro b h s hpc hlong
  exact ⟨Seq.idle, rfl, if_pos ⟨hpc, tooLong_iff.mpr hlong⟩⟩

end Sys2Proof.Proofs
end

section
/-! PROOFS. The family of spec/70_reset_and_hazards.md: what no step changes (O16), what block reset leaves (O7), and the four
invariants at reset (O10). -/

namespace Sys2Proof.Proofs

open Sys2Proof.Machine Sys2Proof.Laws

/-! ## What no step changes (O16) -/

/-- Between `s` and `t` the configuration, the role palette and the number of ports stay. -/
structure ConfigKept (s t : State) : Prop where
  cfg : t.cfg = s.cfg
  palette : t.roleRgb = s.roleRgb
  portCount : t.ports.length = s.ports.length

theorem ConfigKept.refl (s : State) : ConfigKept s s := ⟨rfl, rfl, rfl⟩

theorem ConfigKept.trans {s t u : State} (h : ConfigKept s t) (h' : ConfigKept t u) : ConfigKept s u :=
  ⟨h'.cfg.trans h.cfg, h'.palette.trans h.palette, h'.portCount.trans h.portCount⟩

/-- A new record for the running port is no new port. -/
theorem ConfigKept.of_set {s t : State} {q : Port} (hcfg : t.cfg = s.cfg) (hpalette : t.roleRgb = s.roleRgb)
    (hports : t.ports = s.ports.set s.cur q) : ConfigKept s t :=
  ⟨hcfg, hpalette, by rw [hports, List.length_set]⟩

theorem QuietStep.configKept {s t : State} {q : Port} (h : QuietStep s t q) : ConfigKept s t :=
  .of_set h.cfg h.palette h.ports

theorem runMicro_configKept {m : Micro} {s t : State} (h : runMicro m s = .next t) : ConfigKept s t := by
  have hnext := runMicro_next m s t h
  cases m with
  | acquire =>
    obtain ⟨-, rfl⟩ | ⟨-, rfl⟩ := hnext
    · exact .of_set rfl rfl rfl
    · exact .refl _
  | entry _ =>
    obtain ⟨-, -, rfl⟩ | ⟨-, -, rfl⟩ | ⟨-, rfl⟩ := hnext
    · exact .of_set rfl rfl rfl
    · exact .of_set rfl rfl rfl
    · exact .refl _
  | drawPixel _ _ => obtain ⟨_, -, rfl⟩ | ⟨-, rfl⟩ := hnext <;> exact .of_set rfl rfl rfl
  | release | releaseCmd | exit _ => obtain ⟨-, rfl⟩ := hnext; exact .of_set rfl rfl rfl
  | sampleBusy => obtain ⟨_, _, -, -, rfl⟩ := hnext; exact .of_set rfl rfl rfl
  | xferOp _ _ | xferChunk _ _ _ => obtain ⟨_, _, _, -, -, -, rfl⟩ := hnext; exact .of_set rfl rfl rfl
  | pin _ _ | delay _ | pollDelay | logXfer _ | startRefresh | openWindow | closeWindow | respondSent | ret | drawStart _
  | drawEnd => cases hnext; exact .of_set rfl rfl rfl

/-- What is no micro-step is a quiet answer. -/
theorem exec_configKept {i : Instr} {s t : State} (h : exec i s = .next t) : ConfigKept s t := by
  cases hm : stepAt s.cfg i s.seq.pc with
  | none =>
    obtain ⟨_, hquiet, -⟩ := exec_quiet h hm
    exact hquiet.configKept
  | some m =>
    rcases exec_at_micro i s m hm with he | ⟨-, he⟩ <;> rw [he] at h
    · exact runMicro_configKept h
    · cases h
      obtain ⟨_, hquiet, -⟩ := respond_quiet s (refuseResp .len .empty)
      exact hquiet.configKept

theorem accept_configKept (s : State) (i : Instr) : ConfigKept s (s.accept i) := by
  obtain ⟨_, hquiet, -⟩ := accept_quiet s i
  exact hquiet.configKept

theorem respondIllegal_configKept (s : State) : ConfigKept s s.respondIllegal := by
  obtain ⟨_, hquiet, -⟩ := respondIllegal_quiet s
  exact hquiet.configKept

/-- Settles O16: every kind of step replaces at most the record of the port that moves. -/
theorem configurationIsConstant : Obligations.ConfigurationIsConstant := by
  intro s t h
  obtain ⟨e, p, hstep⟩ := step_from_choice s
  have hkept : ConfigKept { s with env := e, cur := p } t := by
    rcases hstep with h' | ⟨-, h' | h' | ⟨i, h'⟩ | ⟨i, -, h'⟩⟩ <;> rw [h'] at h
    · cases h; exact ⟨rfl, rfl, rfl⟩
    · cases h; exact .refl _
    · cases h; exact respondIllegal_configKept _
    · exact (accept_configKept _ i).trans (exec_configKept h)
    · exact exec_configKept h
  exact ⟨hkept.cfg, hkept.palette, hkept.portCount⟩

/-! ## Block reset (O7) -/

theorem construct_eq_some_iff {c : Cfg} {s : State} :
    State.construct c = some s ↔ c.legal = true ∧ State.ofCfg c = s := by
  rw [State.construct, Option.ite_none_right_eq_some, Option.some_inj]

/-- The OPEN parameters of `Config.cfg` are within their ranges (00_scope.md R5, R6). -/
theorem config_cfg_legal : Config.cfg.legal = true := by
  rw [cfg_legal_iff]
  simp only [Config.cfg]
  omega

@[simp] theorem ofCfg_portAt (c : Cfg) (p : Nat) : (State.ofCfg c).portAt p = Port.idle :=
  List.getElem?_getD_replicate_default_eq ..

/-- Settles O7: a constructed instance is `State.ofCfg`, field by field. -/
theorem resetValues : Obligations.ResetValues := by
  refine ⟨fun c s h => ?_, construct_eq_some_iff.mpr ⟨config_cfg_legal, rfl⟩⟩
  obtain ⟨-, rfl⟩ := construct_eq_some_iff.mp h
  have hidle : ∀ p, p < c.nPorts → ((State.ofCfg c).portAt p).seq.op = .idle := fun p _ => by rw [ofCfg_portAt]; rfl
  exact ⟨rfl, List.length_replicate, hidle, rfl, fun _ _ => ⟨rfl, rfl⟩, rfl, rfl, rfl, rfl, rfl, rfl, rfl, rfl, rfl, rfl,
    rfl, rfl, rfl, rfl, rfl, rfl⟩

/-! ## The invariants at reset (O10) -/

theorem inv_ofCfg {c : Cfg} (h : c.legal = true) : Inv (State.ofCfg c) where
  cfgLegal := h
  portCount := List.length_replicate
  palette := rfl
  busInRange := nofun
  fsmInRange := nofun
  csHigh _ := rfl
  resting _ := rfl
  port p _ := (portInv_ended_iff (.inl (by rw [ofCfg_portAt]; rfl))).mpr ⟨nofun, nofun⟩

/-- Block reset fills the planes as FB_CLEAR does. -/
theorem planeInv_ofCfg (c : Cfg) : PlaneInv (State.ofCfg c) := planeInv_congr (planeInv_cleared (State.ofCfg c)) rfl rfl rfl

theorem traceInv_ofCfg (c : Cfg) : TraceInv (State.ofCfg c) := rfl

/-- No request is in progress. -/
theorem dstateInv_ofCfg (c : Cfg) : DstateInv (State.ofCfg c) := by
  intro p i _ hop
  rw [ofCfg_portAt] at hop
  cases hop

/-- Settles O10: only the first invariant asks that the configuration be legal, which `Config.cfg` is. -/
theorem invariantsHoldAtReset : Obligations.InvariantsHoldAtReset := by
  have hold (c : Cfg) (h : c.legal = true) :
      Inv (State.ofCfg c) ∧ PlaneInv (State.ofCfg c) ∧ TraceInv (State.ofCfg c) ∧ DstateInv (State.ofCfg c) :=
    ⟨inv_ofCfg h, planeInv_ofCfg c, traceInv_ofCfg c, dstateInv_ofCfg c⟩
  exact ⟨hold, hold Config.cfg config_cfg_legal⟩

end Sys2Proof.Proofs
end
